-- ==== Sys2Proof/Word.lean ====
section
/-! DEFINITION. The word types of QVFD: bytes of the stream and of the surfaces, and pixels. -/

namespace Sys2Proof

/-- A byte of the stream, of PAYLOAD or of a surface (00_scope R6). -/
abbrev Byte := BitVec 8

/-- A pixel value (00_scope R11: BPP consecutive bytes). Only the low BPP bytes are ever stored; they are stored
little-endian (20_memory R61). -/
abbrev Pixel := BitVec 32

end Sys2Proof
end

