-- ==== Sys2Proof/Config.lean ====
section
/-! DEFINITION. The parameters of QVFD (00_scope R5) as plain data, the constants of the format, and the values the
spec leaves open, as constants without a body. -/

namespace Sys2Proof

/-- Bytes per pixel, the register BPP and the parameter CFG_BPP: one of 1, 2, 4 (00_scope R5, 10_state R33). -/
inductive Depth where
  | one
  | two
  | four
  deriving DecidableEq, Repr, Inhabited

/-- The number of bytes of a pixel. -/
def Depth.bytes : Depth → Nat
  | .one => 1
  | .two => 2
  | .four => 4

/-- Which colour conversions CONV2 and CONV4 the instance has (41_color_tables R151): the reference definition of
R155, or the uninterpreted pair number `k`. A statement that fixes no choice holds for every pair of functions. -/
inductive ConvSel where
  | reference
  | custom (k : Nat)
  deriving DecidableEq, Repr, Inhabited

/-- The implementation parameters of 00_scope R5 whose value is OPEN or marked general knowledge. They are constants of
an instance: no step writes them. -/
structure Params where
  /-- `N_SESS`, the number of session slots -/
  nSess : Nat
  /-- `MAX_W`, the largest frame width a surface can hold -/
  maxW : Nat
  /-- `MAX_H` -/
  maxH : Nat
  /-- `CFG_BPP`, latched into BPP at START -/
  cfgBpp : Depth
  /-- `CFG_HALF` -/
  cfgHalf : Bool
  /-- `CFG_SIGNED_OUT` -/
  cfgSignedOut : Bool
  /-- `AUDIO_RATE` -/
  audioRate : Nat
  /-- `MB`, the macroblock edge in pixels -/
  mb : Nat
  /-- `MAGIC` -/
  magic : BitVec 16
  tagInfo : BitVec 16
  tagCodebook : BitVec 16
  tagVideo : BitVec 16
  tagHang : BitVec 16
  tagAudioMono : BitVec 16
  tagAudioStereo : BitVec 16
  tagPacket : BitVec 16
  /-- the pair CONV2, CONV4 -/
  conv : ConvSel
  deriving DecidableEq, Repr, Inhabited

/-- How often a macroblock is quartered down to its 8x8 blocks: once for the edge 16, `n` times for the edge 8 * 2^n. -/
def Params.mbLevels (p : Params) : Nat := Nat.log2 (p.mb / 8)

/-- The seven type tags, in the order of 30_encoding R95. -/
def Params.tags (p : Params) : List (BitVec 16) :=
  [p.tagInfo, p.tagCodebook, p.tagVideo, p.tagHang, p.tagAudioMono, p.tagAudioStereo, p.tagPacket]

/-- The conditions 00_scope R5 puts on the parameters: at least one slot, MAX_W and MAX_H multiples of 16 and at
most 65520, the tags pairwise distinct; MAGIC is no tag (30_encoding R95). And a macroblock can be quartered down to 8x8
blocks: its edge is 8 * 2^n, of which R5's 16 is one (DESIGN CHOICE, log entry 27). -/
def Params.wf (p : Params) : Bool :=
  decide (1 ≤ p.nSess) && decide (p.maxW % 16 = 0) && decide (p.maxW ≤ 65520) && decide (p.maxH % 16 = 0)
    && decide (p.maxH ≤ 65520) && decide (p.mb = 8 * 2 ^ p.mbLevels) && decide p.tags.Nodup
    && decide (p.magic ∉ p.tags)

/-- The reference values of 00_scope R5. N_SESS, MAX_W, MAX_H, AUDIO_RATE, MB, MAGIC, the tags and the conversions are
PRESUMED (the spec marks them general knowledge of the family). CFG_BPP and CFG_HALF, for which R5 suggests no value,
are the ones the vectors of 95_test_vectors use: DESIGN CHOICE (log entry 3). -/
def Params.reference : Params where
  nSess := 16
  maxW := 512
  maxH := 512
  cfgBpp := .one
  cfgHalf := false
  cfgSignedOut := false
  audioRate := 22050
  mb := 16
  magic := 0x1084
  tagInfo := 0x1001
  tagCodebook := 0x1002
  tagVideo := 0x1011
  tagHang := 0x1013
  tagAudioMono := 0x1020
  tagAudioStereo := 0x1021
  tagPacket := 0x1030
  conv := .reference

/-- `MAX_CHUNK`, the largest legal declared payload length (00_scope R5). -/
def Config.maxChunk : Nat := 65536

/-- `CHUNK_HDR`, the size of a chunk header in bytes (00_scope R5). -/
def Config.chunkHdr : Nat := 8

/-- `FILE_HDR`, the bytes examined at START and at a loop restart (00_scope R5). -/
def Config.fileHdr : Nat := 16

/-- `DEFAULT_FPS`, taken when the fps field of the header is 0 (00_scope R5). -/
def Config.defaultFps : BitVec 16 := 30

/-- The uninterpreted conversion CONV2 number `k` (41_color_tables R151, 93_implementation_defined U10). -/
opaque Config.conv2 (k : Nat) (y u v : Byte) : BitVec 16

/-- The uninterpreted conversion CONV4 number `k` (41_color_tables R151, 93_implementation_defined U10). -/
opaque Config.conv4 (k : Nat) (y u v : Byte) : BitVec 32

/-- What byte `a` of a surface reads as when nothing has written it since its contents became unspecified for the
`epoch`-th time: a FREE VALUE (10_state R39, 93_implementation_defined U1; log entry 2). -/
opaque Config.unwrittenByte (epoch a : Nat) : Byte

end Sys2Proof
end

