-- ==== Sys2Proof/Syntax.lean ====
section
/-! DEFINITION. The instructions of QVFD, one constructor per row of spec/opcode_table.json, and the encoded objects
they are decoded from (30_encoding R90). -/

namespace Sys2Proof

/-- The fields of a chunk header that follow its type tag (30_encoding R92). -/
structure ChunkHdr where
  /-- payload length, LE24 (R93) -/
  len : BitVec 24
  /-- the reserved byte, ignored (R108 (c)) -/
  reserved : Byte
  /-- auxiliary byte 0, the low byte of the aux field (R94) -/
  aux0 : Byte
  /-- auxiliary byte 1, the high byte of the aux field (R94) -/
  aux1 : Byte
  deriving DecidableEq, Repr, Inhabited

/-- The instructions (30_encoding R90). The operand bytes of a video opcode are not part of the opcode: its meaning
reads them from the payload at PPTR (43_quadtree_video R185, R202), as a chunk's meaning reads its payload. -/
inductive Instr where
  /-- FILEHDR, bytes 0..7 of the source (R91, R137) -/
  | filehdr (magic : BitVec 16) (unused : BitVec 32) (fps : BitVec 16)
  /-- INFO (R95, R133) -/
  | info (hd : ChunkHdr)
  /-- CODEBOOK (R95, R160) -/
  | codebook (hd : ChunkHdr)
  /-- VIDEO (R95, R183) -/
  | video (hd : ChunkHdr)
  /-- HANG (R95, R134) -/
  | hang (hd : ChunkHdr)
  /-- AUDIO_MONO (R95, R261) -/
  | audioMono (hd : ChunkHdr)
  /-- AUDIO_STEREO (R95, R262) -/
  | audioStereo (hd : ChunkHdr)
  /-- PACKET (R95, R135) -/
  | packet (hd : ChunkHdr)
  /-- SKIP8, code 00 at an 8x8 node (R100, R186) -/
  | skip8
  /-- MOT8, code 01 at an 8x8 node (R100, R187) -/
  | mot8
  /-- VQ8, code 10 at an 8x8 node (R100, R188) -/
  | vq8
  /-- SUB8, code 11 at an 8x8 node (R100, R189) -/
  | sub8
  /-- SKIP4, code 00 at a 4x4 child (R101, R190) -/
  | skip4
  /-- MOT4, code 01 at a 4x4 child (R101, R191) -/
  | mot4
  /-- VQ4, code 10 at a 4x4 child (R101, R192) -/
  | vq4
  /-- QUAD2, code 11 at a 4x4 child (R101, R193) -/
  | quad2
  /-- DELTA, one audio byte (R105, R263) -/
  | delta (d : Byte)
  /-- START, command code 0 (R107, R221) -/
  | start (srcId : Nat) (x y w h : BitVec 32) (flags : BitVec 4) (now : BitVec 48)
  /-- TICK, command code 1 (R107, R222) -/
  | tick (handle : Nat) (now : BitVec 48)
  /-- STOP, command code 2 (R107, R228) -/
  | stop (handle : Nat)
  /-- GETFRAME, command code 3 (R107, R231) -/
  | getframe (handle : Nat)
  /-- RESUME, command code 4 (R107, R229) -/
  | resume (handle : Nat)
  deriving DecidableEq, Repr

/-- The command port (30_encoding R107): a 3-bit code and the operand lines. The spec gives the widths of the
operands and no layout of them in a word, so each operand has a line of its own; `srcId` is opaque and a handle is a
slot number (10_state R21), so both are numbers (log entry 6). -/
structure PortWord where
  code : BitVec 3
  srcId : Nat
  handle : Nat
  x : BitVec 32
  y : BitVec 32
  w : BitVec 32
  h : BitVec 32
  flags : BitVec 4
  now : BitVec 48
  deriving DecidableEq, Repr, Inhabited

/-- An encoded object, with the place it is decoded at (30_encoding R90, R109: the place alone decides the format). -/
inductive Encoded where
  /-- bytes 0..7 of the source (R91) -/
  | fileHdr (bytes : List Byte)
  /-- the 8 bytes of a chunk header (R92) -/
  | chunkHdr (bytes : List Byte)
  /-- an opcode consumed for an 8x8 node (R100) -/
  | qop8 (code : BitVec 2)
  /-- an opcode consumed for a 4x4 child (R101) -/
  | qop4 (code : BitVec 2)
  /-- a byte of an audio payload (R105) -/
  | delta (d : Byte)
  /-- a host command (R107) -/
  | hostCmd (c : PortWord)
  deriving DecidableEq, Repr

end Sys2Proof
end

