-- ==== Sys2Proof/WellFormed.lean ====
section
/-! DEFINITION. Well-formed instructions: the fixed fields hold the instance's values and no declared length is over
the maximum. An instruction that is not well-formed still has a meaning (it is an error the rules describe). -/

namespace Sys2Proof

/-- The declared length is legal (30_encoding R93, R108 (b)). -/
def ChunkHdr.wf (hd : ChunkHdr) : Bool := decide (hd.len.toNat ≤ Config.maxChunk)

/-- Well-formedness under the parameters `p`: the file header carries MAGIC (30_encoding R91) and a chunk declares at
most 65536 bytes (R93). Video opcodes, audio bytes and commands have no illegal value (R108 (e), R263, R234). -/
def Instr.wf (p : Params) : Instr → Bool
  | .filehdr magic _ _ => decide (magic = p.magic)
  | .info hd => hd.wf
  | .codebook hd => hd.wf
  | .video hd => hd.wf
  | .hang hd => hd.wf
  | .audioMono hd => hd.wf
  | .audioStereo hd => hd.wf
  | .packet hd => hd.wf
  | .skip8 => true
  | .mot8 => true
  | .vq8 => true
  | .sub8 => true
  | .skip4 => true
  | .mot4 => true
  | .vq4 => true
  | .quad2 => true
  | .delta _ => true
  | .start _ _ _ _ _ _ _ => true
  | .tick _ _ => true
  | .stop _ => true
  | .getframe _ => true
  | .resume _ => true

end Sys2Proof
end

