-- ==== Sys2Proof/Decode.lean ====
section
/-! DEFINITION. The byte-order helpers, the decoder (total, rejecting by name) and the encoder (30_encoding). -/

namespace Sys2Proof

/-- `LE16(b0, b1)` (00_scope R6, 20_memory R60). -/
def le16 (b0 b1 : Byte) : BitVec 16 := b1 ++ b0

/-- `LE24(b0, b1, b2)` (00_scope R6). -/
def le24 (b0 b1 b2 : Byte) : BitVec 24 := b2 ++ (b1 ++ b0)

/-- Four bytes read little-endian (20_memory R60). -/
def le32 (b0 b1 b2 b3 : Byte) : BitVec 32 := b3 ++ (b2 ++ (b1 ++ b0))

/-- Byte `i` of a value, byte 0 the least significant (00_scope R6). -/
def byteAt {n : Nat} (v : BitVec n) (i : Nat) : Byte := v.extractLsb' (8 * i) 8

/-- Why the decoder rejects an encoded object. -/
inductive DecodeError where
  /-- not the eight bytes of a header -/
  | notEightBytes
  /-- a chunk whose type tag is none of the seven (30_encoding R108 (a)) -/
  | unknownTag (tag : BitVec 16)
  /-- a command code 5, 6 or 7 (30_encoding R108 (f)) -/
  | reservedCommand (code : BitVec 3)
  deriving DecidableEq, Repr

/-- The file header (30_encoding R91). Any magic is decoded: comparing it with MAGIC is part of FILEHDR's meaning
(40_chunk_reader R137). -/
def decodeFileHdr : List Byte → Except DecodeError Instr
  | [m0, m1, u0, u1, u2, u3, f0, f1] => .ok (.filehdr (le16 m0 m1) (le32 u0 u1 u2 u3) (le16 f0 f1))
  | _ => .error .notEightBytes

/-- The type tag selects the chunk (30_encoding R95). -/
def decodeTag (p : Params) (tag : BitVec 16) (hd : ChunkHdr) : Except DecodeError Instr :=
  if tag = p.tagInfo then .ok (.info hd)
  else if tag = p.tagCodebook then .ok (.codebook hd)
  else if tag = p.tagVideo then .ok (.video hd)
  else if tag = p.tagHang then .ok (.hang hd)
  else if tag = p.tagAudioMono then .ok (.audioMono hd)
  else if tag = p.tagAudioStereo then .ok (.audioStereo hd)
  else if tag = p.tagPacket then .ok (.packet hd)
  else .error (.unknownTag tag)

/-- The type tag and the header fields of eight header bytes (30_encoding R92). -/
def chunkFields : List Byte → Option (BitVec 16 × ChunkHdr)
  | [t0, t1, l0, l1, l2, r, a0, a1] => some (le16 t0 t1, ⟨le24 l0 l1 l2, r, a0, a1⟩)
  | _ => none

/-- A chunk header (30_encoding R92). -/
def decodeChunkHdr (p : Params) (bytes : List Byte) : Except DecodeError Instr :=
  match chunkFields bytes with
  | some (tag, hd) => decodeTag p tag hd
  | none => .error .notEightBytes

/-- An opcode at an 8x8 node (30_encoding R100). -/
def decodeQop8 (code : BitVec 2) : Instr :=
  if code = 0 then .skip8 else if code = 1 then .mot8 else if code = 2 then .vq8 else .sub8

/-- An opcode at a 4x4 child (30_encoding R101). -/
def decodeQop4 (code : BitVec 2) : Instr :=
  if code = 0 then .skip4 else if code = 1 then .mot4 else if code = 2 then .vq4 else .quad2

/-- A host command (30_encoding R107); codes 5 to 7 are reserved (R108 (f)). -/
def decodeCommand (c : PortWord) : Except DecodeError Instr :=
  if c.code = 0 then .ok (.start c.srcId c.x c.y c.w c.h c.flags c.now)
  else if c.code = 1 then .ok (.tick c.handle c.now)
  else if c.code = 2 then .ok (.stop c.handle)
  else if c.code = 3 then .ok (.getframe c.handle)
  else if c.code = 4 then .ok (.resume c.handle)
  else .error (.reservedCommand c.code)

/-- The decoder: the place fixes the format (30_encoding R90, R109). -/
def decode (p : Params) : Encoded → Except DecodeError Instr
  | .fileHdr bytes => decodeFileHdr bytes
  | .chunkHdr bytes => decodeChunkHdr p bytes
  | .qop8 code => .ok (decodeQop8 code)
  | .qop4 code => .ok (decodeQop4 code)
  | .delta d => .ok (.delta d)
  | .hostCmd c => decodeCommand c

/-- The eight bytes of a chunk header (30_encoding R92). -/
def encodeChunkHdr (tag : BitVec 16) (hd : ChunkHdr) : Encoded :=
  .chunkHdr [byteAt tag 0, byteAt tag 1, byteAt hd.len 0, byteAt hd.len 1, byteAt hd.len 2, hd.reserved, hd.aux0, hd.aux1]

/-- The port word of a command without operands (30_encoding R107). -/
def portWord (code : BitVec 3) : PortWord := ⟨code, 0, 0, 0, 0, 0, 0, 0, 0⟩

/-- The encoder, from the same tables (30_encoding R91, R92, R95, R100, R101, R105, R107). -/
def encode (p : Params) : Instr → Encoded
  | .filehdr m u f =>
      .fileHdr [byteAt m 0, byteAt m 1, byteAt u 0, byteAt u 1, byteAt u 2, byteAt u 3, byteAt f 0, byteAt f 1]
  | .info hd => encodeChunkHdr p.tagInfo hd
  | .codebook hd => encodeChunkHdr p.tagCodebook hd
  | .video hd => encodeChunkHdr p.tagVideo hd
  | .hang hd => encodeChunkHdr p.tagHang hd
  | .audioMono hd => encodeChunkHdr p.tagAudioMono hd
  | .audioStereo hd => encodeChunkHdr p.tagAudioStereo hd
  | .packet hd => encodeChunkHdr p.tagPacket hd
  | .skip8 => .qop8 0
  | .mot8 => .qop8 1
  | .vq8 => .qop8 2
  | .sub8 => .qop8 3
  | .skip4 => .qop4 0
  | .mot4 => .qop4 1
  | .vq4 => .qop4 2
  | .quad2 => .qop4 3
  | .delta d => .delta d
  | .start srcId x y w h flags now => .hostCmd ⟨0, srcId, 0, x, y, w, h, flags, now⟩
  | .tick handle now => .hostCmd { portWord 1 with handle, now }
  | .stop handle => .hostCmd { portWord 2 with handle }
  | .getframe handle => .hostCmd { portWord 3 with handle }
  | .resume handle => .hostCmd { portWord 4 with handle }

/-- The first `n` bytes of a number, least significant first (the numbering of spec/opcode_table.json). -/
def tableBytes (n w : Nat) : List Byte := (List.range n).map fun i => BitVec.ofNat 8 (w / 256 ^ i)

/-- The encoded object an opcode-table word stands for, and so the place it is decoded at. 64 bits are a chunk
header, or the file header when the low 16 bits are the reference MAGIC. Eight bits (a row of 2, 3 or 8 bits in whole
bytes) are a host command for the codes 0 to 4 and an audio byte otherwise: the 2-bit opcodes have the same words, and
only their place tells them apart (30_encoding R109; log entry 8). The exact widths 3 and 2 are taken as a command and as
an opcode at an 8x8 node. -/
def tableEncoded (nbits w : Nat) : Option Encoded :=
  if nbits = 64 then
    if BitVec.ofNat 16 w = Params.reference.magic then some (.fileHdr (tableBytes 8 w))
    else some (.chunkHdr (tableBytes 8 w))
  else if nbits = 8 then
    if w < 5 then some (.hostCmd (portWord (BitVec.ofNat 3 w))) else some (.delta (BitVec.ofNat 8 w))
  else if nbits = 3 then some (.hostCmd (portWord (BitVec.ofNat 3 w)))
  else if nbits = 2 then some (.qop8 (BitVec.ofNat 2 w))
  else none

/-- The instruction the decoder reads from the bits of an opcode-table word, under the reference parameters. -/
def decodeTableWord (nbits w : Nat) : Option Instr :=
  match tableEncoded nbits w with
  | some e =>
    match decode Params.reference e with
    | .ok i => some i
    | .error _ => none
  | none => none

end Sys2Proof
end

