-- ==== Sys2Proof/Machine/State.lean ====
section
/-! DEFINITION. The state of QVFD as plain data: the registers and memories of the session slots (10_state), the
ports, and the state after hardware reset (70_reset_and_hazards R320). -/

namespace Sys2Proof.Machine

/-- STATUS (10_state R28). The codes are those of `Status.code` (30_encoding R112). -/
inductive Status where
  | play
  | looped
  | idle
  | endOfStream
  deriving DecidableEq, Repr, Inhabited

/-- ERR: the session-fatal errors, and none (60_exceptions R280). The codes are those of `ErrCode.code`. -/
inductive ErrCode where
  | none
  | truncated
  | oversize
  | invalidMagic
  | badOpcode
  | indexOutOfRange
  | modeUnsupported
  deriving DecidableEq, Repr, Inhabited

/-- A bank of the frame buffer: the values of WR and DISP (10_state R31). -/
inductive BankId where
  | bank0
  | bank1
  deriving DecidableEq, Repr, Inhabited

/-- A tile: its rows from the top, each a row of pixels from the left (10_state R35). -/
abbrev Tile := List (List Pixel)

/-- Bytes by address: the addresses strictly rising, an unlisted address holds no written byte. -/
abbrev Mem := List Host.Cell

/-- One bank of the frame buffer (10_state R39): the bytes written since its contents became unspecified for the
`epoch`-th time. A byte not written since then reads as the free value `Config.unwrittenByte epoch a`. -/
structure Surface where
  cells : Mem
  epoch : Nat
  deriving DecidableEq, Repr, Inhabited

/-- One AudioPush event (45_audio R266): interleaved signed samples, rate, channels. -/
structure AudioPush where
  samples : List Int
  rate : Nat
  channels : Nat
  deriving DecidableEq, Repr, Inhabited

/-- A byte source of the host (20_memory R62): its identity, its length SRC_LEN and its bytes. Bytes past the listed
ones, up to `len`, are 0 (log entry 7). -/
structure Source where
  id : Nat
  len : Nat
  bytes : List Byte
  deriving DecidableEq, Repr, Inhabited

/-- The registers and memories of one session slot (10_state R22 to R39, R45). -/
structure Session where
  /-- `IN_USE` (R21) -/
  inUse : Bool
  /-- `STATUS` (R28) -/
  status : Status
  /-- `ERR` (R29) -/
  err : ErrCode
  /-- `ERR_OFF` (R29) -/
  errOff : BitVec 32
  /-- `LOOP` (R30) -/
  loopFlag : Bool
  /-- `HOLD` (R30) -/
  holdFlag : Bool
  /-- `SILENT` (R30) -/
  silentFlag : Bool
  /-- `GLOBAL` (R30) -/
  globalFlag : Bool
  /-- `SRC_ID` (R33) -/
  srcId : Nat
  /-- `SRC_LEN` (R33) -/
  srcLen : BitVec 32
  /-- the bytes of SRC as START opened it, zeros after the listed ones: SRC is a constant of the session (20_memory R74),
  and a source is held against it (`sourceOf`); the MODEL's own (log entry 7) -/
  srcBytes : List Byte
  /-- `OFFSET`, the program counter of the session (R26) -/
  offset : BitVec 32
  /-- `FPS` (R33) -/
  fps : BitVec 16
  /-- `W` (R33) -/
  w : BitVec 16
  /-- `H` (R33) -/
  h : BitVec 16
  /-- `BPP` (R33) -/
  bpp : Depth
  /-- `MODE` (R33), 0 (normal) in every session -/
  mode : BitVec 2
  /-- `DST_X`, signed (R33) -/
  dstX : BitVec 32
  /-- `DST_Y`, signed (R33) -/
  dstY : BitVec 32
  /-- `DST_W`, signed (R33) -/
  dstW : BitVec 32
  /-- `DST_H`, signed (R33) -/
  dstH : BitVec 32
  /-- `START_TIME` (R33) -/
  startTime : BitVec 48
  /-- `NOW_L` (R33) -/
  nowL : BitVec 48
  /-- `DECODED` (R33) -/
  decoded : BitVec 64
  /-- `TARGET` (R33) -/
  target : BitVec 64
  /-- `N2` (R33) -/
  n2 : BitVec 9
  /-- `N4` (R33) -/
  n4 : BitVec 9
  /-- `RAWN` (R33) -/
  rawn : BitVec 16
  /-- the qualifier `inmem` of the latest byte-source request (20_memory R62, 40_chunk_reader R136) -/
  inmem : Bool
  /-- `AT_VALID` (R32) -/
  atValid : Bool
  /-- `AT_N` (R32) -/
  atN : Nat
  /-- `WR`, the writing bank (R31) -/
  wr : BankId
  /-- `FIRST` (R31) -/
  first : Bool
  /-- `HAS_FRAME` (R31) -/
  hasFrame : Bool
  /-- `DISP` (R31) -/
  disp : BankId
  /-- `FR_W` (R31) -/
  frW : BitVec 16
  /-- `FR_H` (R31) -/
  frH : BitVec 16
  /-- `C_TYPE` (R22) -/
  cType : BitVec 16
  /-- `C_LEN` (R22) -/
  cLen : BitVec 24
  /-- `C_AUX0` (R22) -/
  cAux0 : Byte
  /-- `C_AUX1` (R22) -/
  cAux1 : Byte
  /-- `OPW`, the opcode word cache (R23) -/
  opw : BitVec 16
  /-- `OPN`, the number of unconsumed opcodes (R23) -/
  opn : BitVec 4
  /-- `PPTR`, the payload read pointer (R23) -/
  pptr : BitVec 17
  /-- `LEAF`, the current 8x8 node (R23) -/
  leaf : Nat
  /-- `MDX`, two's complement (R23) -/
  mdx : BitVec 4
  /-- `MDY`, two's complement (R23) -/
  mdy : BitVec 4
  /-- `ACC_L` (R24) -/
  accL : BitVec 16
  /-- `ACC_R` (R24) -/
  accR : BitVec 16
  /-- the output list of the audio chunk in progress (45_audio R261, `out`) -/
  audioBuf : List Int
  /-- how many payload bytes of the audio chunk in progress have been stepped -/
  audioPos : Nat
  /-- `CB2`: tile `k` of the list is the entry with code `k` (R35) -/
  cb2 : List Tile
  /-- `CB4` (R35) -/
  cb4 : List Tile
  /-- `CB8` (R35) -/
  cb8 : List Tile
  /-- `MCOMP`, the motion table (R36) -/
  mcomp : List (Int × Int)
  /-- `AT`, the spatial address table, each entry as the pixel coordinates of the block's top-left pixel, which R37
  allows in place of its byte offset (R37) -/
  addrTable : List (Nat × Nat)
  /-- `PAYLOAD`: the bytes that have a value, from address 0 (R38) -/
  payload : List Byte
  /-- `FB[0]` (R39) -/
  fb0 : Surface
  /-- `FB[1]` (R39) -/
  fb1 : Surface
  /-- `AUDIO_OUT` (R45) -/
  audioOut : List AudioPush
  deriving DecidableEq, Repr, Inhabited

/-- Where the scheduler stands inside a VIDEO chunk: about to take the opcode of node LEAF, or of its child `j`
(10_state R27, 43_quadtree_video R183). -/
inductive VideoPos where
  | node
  | child (j : Fin 4)
  deriving DecidableEq, Repr, Inhabited

/-- Where in a command the machine stands. Only in `idle` is a command taken from the port (20_memory R65). -/
inductive Phase where
  /-- no command executes -/
  | idle
  /-- the file header of slot `h` is to be parsed, by START or (`restart`) by a loop restart (R137) -/
  | header (h : Nat) (restart : Bool)
  /-- the head of the catch-up loop of a TICK on slot `h` (44_scheduler R224) -/
  | loop (h : Nat)
  /-- the chunk at OFFSET of slot `h` is to be fetched (40_chunk_reader R130) -/
  | fetch (h : Nat)
  /-- inside a VIDEO chunk of slot `h` -/
  | video (h : Nat) (pos : VideoPos)
  /-- inside an audio chunk of slot `h`; `stereo` tells AUDIO_STEREO from AUDIO_MONO -/
  | audio (h : Nat) (stereo : Bool)
  deriving DecidableEq, Repr, Inhabited

/-- START's errors (60_exceptions R287). -/
inductive StartError where
  | noSlot
  | notFound
  | zeroLength
  deriving DecidableEq, Repr

/-- The record GETFRAME returns (44_scheduler R231), with the slot it belongs to and the count of TICKs and STOPs of that
slot it was handed out under: these two are the MODEL's own, and say how long the reference stays good (70_reset R329;
log entry 16). -/
structure FrameRef where
  handle : Nat
  lease : Nat
  bank : BankId
  base : Nat
  width : Nat
  height : Nat
  line : Nat
  bpp : Depth
  x : BitVec 32
  y : BitVec 32
  w : BitVec 32
  h : BitVec 32
  deriving DecidableEq, Repr

/-- The answer of a command (30_encoding R107, R112). -/
inductive Result where
  /-- START: the slot taken -/
  | handle (slot : Nat)
  /-- START: an error -/
  | error (e : StartError)
  /-- TICK, STOP, RESUME -/
  | status (s : Status)
  /-- GETFRAME: a frame -/
  | frame (f : FrameRef)
  /-- GETFRAME: None -/
  | noFrame
  deriving DecidableEq, Repr

/-- The state. -/
structure State where
  /-- the parameters of the instance (00_scope R5); no step writes them -/
  cfg : Params
  /-- the byte sources of the host (20_memory R62); no step writes them (R74) -/
  sources : List Source
  /-- the N_SESS slots, slot `h` at index `h` (10_state R21) -/
  slots : List Session
  /-- where in a command the machine stands -/
  phase : Phase
  /-- the command the host presents on its port, if any (30_encoding R107). The host writes it, between steps; taking a
  command clears it, and one presented while another runs is refused (20_memory R73) -/
  port : Option PortWord
  /-- the answer of the latest completed command -/
  result : Option Result
  /-- for each slot, how many TICKs and STOPs of it were executed: a frame reference is good while the count is the one it
  was handed out under (70_reset R329); the MODEL's own (log entry 16) -/
  leases : List Nat
  /-- the counter the free values are applied to -/
  freeCount : Nat
  deriving DecidableEq, Repr, Inhabited

/-- Why a step stops although the spec knows no such stop. All three are accesses to something the spec says does not
exist; no step from a state that meets the invariant of Safety.lean raises them. -/
inductive Fault where
  /-- An engine works on a slot number that is no slot (10_state R21). Raised by the fetch and by every stream
  instruction. SAFE: the spec has no such access. -/
  | noSuchSlot
  /-- An entry of AT, MCOMP, PAYLOAD, CB2, CB4 or CB8 without a value is read (10_state R25, R35 to R38). Raised by
  the video opcodes, VIDEO's and the audio chunks' fetches. SAFE: R25 forbids a claim that reads it. -/
  | noEntry
  /-- A destination block is not inside the W x H area, where the surface has no pixel (20_memory R68). Raised by the
  block operations. SAFE: every node of AT lies inside the area (43_quadtree_video R180). -/
  | pixelOutsideFrame
  deriving DecidableEq, Repr

/-- Why a step has no successor: outcome (c) of 00_scope R9, or an instruction asked for outside its place. -/
inductive Refusal where
  /-- exec's arm for an instruction without a meaning. SAFE. -/
  | notModelled (mnemonic : String)
  /-- A command while another has not completed (00_scope R9, 20_memory R73, 70_reset R330). Raised by the fetch when a
  command is on the port inside another, and by the five commands. SAFE: the spec says nothing of the state afterwards. -/
  | commandWhileBusy
  /-- Command code 5, 6 or 7 (30_encoding R108 (f)). Raised by the fetch. SAFE. -/
  | reservedCommand (code : BitVec 3)
  /-- A source that vanished, or changed its length or a byte, under a session (00_scope R9 (c), 20_memory R74,
  93_implementation_defined U6). Raised by every step inside a command of the session, and by TICK, GETFRAME and RESUME of
  its handle; STOP ends it (log entry 7). SAFE: the spec gives such a session no meaning. -/
  | sourceChanged
  /-- A source longer than 2^32-1 bytes (20_memory R62, 93_implementation_defined U15). Raised by START. SAFE. -/
  | sourceTooLong
  /-- A stream instruction asked for where the format does not put it (30_encoding R109). Raised by the stream
  instructions when the phase is not theirs; the fetch never asks for one there. SAFE. -/
  | outOfPlace
  deriving DecidableEq, Repr

/-- What an operation on one session answers: a value, a session-fatal error with the session as it stands at the
raise (60_exceptions R290), or a fault. -/
inductive Res (α : Type) where
  | ok (a : α)
  | raised (e : ErrCode) (x : Session)
  | stuck (f : Fault)

/-- What the fetch finds at the place where the machine stands: an encoded instruction and the state after taking it,
or a step that decodes nothing. -/
inductive Fetched where
  | instr (e : Encoded) (s : State)
  | done (o : Host.Outcome State Fault Refusal)

/-- A surface nothing has been written to since its contents became unspecified for the `epoch`-th time. -/
def Surface.unwritten (epoch : Nat) : Surface := ⟨[], epoch⟩

end Sys2Proof.Machine

namespace Sys2Proof

/-- The registers and tables of a slot that hold no value, as FREE VALUES, for the `k`-th time this happens: after START
and STOP, after a chunk that completed or trapped, after a loop restart (10_state R25, R35, R36, R44, 44_scheduler R228,
93_implementation_defined U2, U3; log entry 2). -/
opaque Config.unspecifiedSession (k : Nat) : Machine.Session

/-- What the host reads at offset `o` through the frame reference `f` when it is stale: a FREE VALUE (70_reset R329,
93_implementation_defined U17; log entry 16). -/
opaque Config.staleByte (s : Machine.State) (f : Machine.FrameRef) (o : Nat) : Byte

end Sys2Proof

namespace Sys2Proof.Machine

/-- A slot after hardware reset, the middle column of 10_state R44 (70_reset R320): IN_USE 0, STATUS EndOfStream,
ERR and ERR_OFF 0, HAS_FRAME 0, AUDIO_OUT empty. Every other register is unspecified there and holds 0 here, every
table no entry: DESIGN CHOICE (log entry 1). The banks are unwritten, with the epochs `k` and `k + 1`. -/
def Session.hardwareReset (k : Nat) : Session where
  inUse := false
  status := .endOfStream
  err := .none
  errOff := 0
  loopFlag := false
  holdFlag := false
  silentFlag := false
  globalFlag := false
  srcId := 0
  srcLen := 0
  srcBytes := []
  offset := 0
  fps := 0
  w := 0
  h := 0
  bpp := .one
  mode := 0
  dstX := 0
  dstY := 0
  dstW := 0
  dstH := 0
  startTime := 0
  nowL := 0
  decoded := 0
  target := 0
  n2 := 0
  n4 := 0
  rawn := 0
  inmem := false
  atValid := false
  atN := 0
  wr := .bank0
  first := false
  hasFrame := false
  disp := .bank0
  frW := 0
  frH := 0
  cType := 0
  cLen := 0
  cAux0 := 0
  cAux1 := 0
  opw := 0
  opn := 0
  pptr := 0
  leaf := 0
  mdx := 0
  mdy := 0
  accL := 0
  accR := 0
  audioBuf := []
  audioPos := 0
  cb2 := []
  cb4 := []
  cb8 := []
  mcomp := []
  addrTable := []
  payload := []
  fb0 := .unwritten k
  fb1 := .unwritten (k + 1)
  audioOut := []

/-- The machine after hardware reset (70_reset R320), with the reference parameters: every slot reset, nothing
executing. The ROMs are constant functions. The host offers no source and presents no command. -/
def State.reset : State where
  cfg := Params.reference
  sources := []
  slots := (List.range Params.reference.nSess).map fun i => Session.hardwareReset (2 * i)
  phase := .idle
  port := none
  result := none
  leases := List.replicate Params.reference.nSess 0
  freeCount := 2 * Params.reference.nSess

end Sys2Proof.Machine
end

