-- ==== Sys2Proof/Machine/Flags.lean ====
section
/-! DEFINITION. The status codes, the error codes and the playback flags (10_state R28 to R34, 30_encoding R112, R113,
60_exceptions R280). -/

namespace Sys2Proof.Machine

/-- The 2-bit code of STATUS (10_state R28, 30_encoding R112). -/
def Status.code : Status → BitVec 2
  | .play => 0
  | .looped => 1
  | .idle => 2
  | .endOfStream => 3

/-- The 3-bit code held in ERR (60_exceptions R280). -/
def ErrCode.code : ErrCode → BitVec 3
  | .none => 0
  | .truncated => 1
  | .oversize => 2
  | .invalidMagic => 3
  | .badOpcode => 4
  | .indexOutOfRange => 5
  | .modeUnsupported => 6

/-- The code of a START error (60_exceptions R287). -/
def StartError.code : StartError → Nat
  | .noSlot => 1
  | .notFound => 2
  | .zeroLength => 3

/-- The playback flags START latches from its `flags` operand: bit 0 LOOP, bit 1 HOLD, bit 2 SILENT, bit 3 GLOBAL
(30_encoding R113, 10_state R30). -/
def latchFlags (flags : BitVec 4) (x : Session) : Session :=
  { x with
    loopFlag := flags.getLsbD 0
    holdFlag := flags.getLsbD 1
    silentFlag := flags.getLsbD 2
    globalFlag := flags.getLsbD 3 }

/-- The output `GLOBAL_OUT` of a slot (10_state R34). -/
def globalOut (x : Session) : Bool := x.inUse && x.globalFlag && decide (x.status ≠ .endOfStream)

/-- The other bank: the reference bank is `1 - WR` (10_state R31). -/
def BankId.other : BankId → BankId
  | .bank0 => .bank1
  | .bank1 => .bank0

end Sys2Proof.Machine
end

