-- ==== Sys2Proof/Machine/Ops.lean ====
section
/-! DEFINITION. The operations the instructions share: memories and surfaces, the byte source, trap entry, the chunk
prologue and advance, the catch-up loop, frame completion. -/

namespace Sys2Proof.Machine

/-! ## Byte memories and surfaces -/

/-- The canonical form of a byte memory: the addresses strictly rising. -/
abbrev Mem.wf (m : Mem) : Prop := m.Pairwise fun c d => c.1 < d.1

/-- The byte written at `a`, if any. -/
def Mem.read : Mem → Nat → Option Byte
  | [], _ => none
  | c :: t, a => if a = c.1 then some c.2 else Mem.read t a

/-- Write byte `b` at `a`, keeping the addresses rising. -/
def Mem.write : Mem → Nat → Byte → Mem
  | [], a, b => [(a, b)]
  | c :: t, a, b =>
    if a < c.1 then (a, b) :: c :: t
    else if a = c.1 then (a, b) :: t
    else c :: Mem.write t a b

/-- Write a list of bytes, the first one first. -/
def Mem.writeAll (m : Mem) : List Host.Cell → Mem
  | [] => m
  | c :: t => Mem.writeAll (Mem.write m c.1 c.2) t

/-- The byte at offset `a` of a bank. A byte nothing has written since the contents became unspecified is a free
value (10_state R39, 93_implementation_defined U1). -/
def Surface.read (f : Surface) (a : Nat) : Byte :=
  match Mem.read f.cells a with
  | some b => b
  | none => Config.unwrittenByte f.epoch a

/-- Write a list of bytes to a bank. -/
def Surface.writeAll (f : Surface) (cs : List Host.Cell) : Surface := { f with cells := Mem.writeAll f.cells cs }

/-- `dst` with its bytes 0 .. n-1 replaced by those of `src`, unwritten ones included (43_quadtree_video R196 (1)). -/
def Surface.copyArea (n : Nat) (src dst : Surface) : Surface :=
  { dst with
    cells := ((List.range n).map fun a => (a, src.read a)) ++ dst.cells.filter fun c => decide (n ≤ c.1) }

/-- A bank of the frame buffer. -/
def Session.bank (x : Session) : BankId → Surface
  | .bank0 => x.fb0
  | .bank1 => x.fb1

/-- Replace a bank of the frame buffer. -/
def Session.setBank (x : Session) (b : BankId) (f : Surface) : Session :=
  match b with
  | .bank0 => { x with fb0 := f }
  | .bank1 => { x with fb1 := f }

/-- `LINE`, the bytes of a row (20_memory R68). -/
def Session.line (x : Session) : Nat := x.w.toNat * x.bpp.bytes

/-- The byte offset of the pixel at column `col` and row `row`; XOFF = YOFF = 0 (20_memory R68, 43_quadtree_video
R202). -/
def pixelOff (x : Session) (col row : Nat) : Nat := row * x.line + col * x.bpp.bytes

/-- The bytes of the active area of a bank (10_state R39). -/
def Session.area (x : Session) : Nat := x.h.toNat * x.line

/-- The addresses and bytes of an n x n block of pixels at (col, row): byte `i` of pixel (r, c) of the block is
`byte r c i` (43_quadtree_video R194, R195, R202). -/
def blockCells (x : Session) (n col row : Nat) (byte : Nat → Nat → Nat → Byte) : List Host.Cell :=
  (List.range n).flatMap fun r =>
    (List.range n).flatMap fun c =>
      (List.range x.bpp.bytes).map fun i => (pixelOff x (col + c) (row + r) + i, byte r c i)

/-- Store an n x n block of pixels in the writing bank at (col, row). The block must lie inside the W x H area
(20_memory R68). -/
def storeBlock (x : Session) (n col row : Nat) (byte : Nat → Nat → Nat → Byte) : Res Session :=
  if col + n ≤ x.w.toNat ∧ row + n ≤ x.h.toNat then
    .ok (x.setBank x.wr ((x.bank x.wr).writeAll (blockCells x n col row byte)))
  else .stuck .pixelOutsideFrame

/-- The pixel `tile[r][c]` (10_state R35). -/
def Tile.px (t : Tile) (r c : Nat) : Pixel := (t.getD r []).getD c 0

/-- The n x n tile whose pixel (r, c) is `f r c`. -/
def Tile.make (n : Nat) (f : Nat → Nat → Pixel) : Tile :=
  (List.range n).map fun r => (List.range n).map fun c => f r c

/-- blit(tile, n, x, y) (43_quadtree_video R195). A pixel is stored as its low BPP bytes, little-endian
(20_memory R61). -/
def blit (x : Session) (t : Tile) (n col row : Nat) : Res Session :=
  storeBlock x n col row fun r c i => byteAt (t.px r c) i

/-- motion(n, x, y, b) with `m = MCOMP[b]` (43_quadtree_video R194): the source block must lie inside the W x H area,
in pixel coordinates; it is copied from the reference bank. -/
def motionFrom (x : Session) (n col row : Nat) (m : Int × Int) : Res Session :=
  let sx : Int := col + m.1
  let sy : Int := row + m.2
  if sx < 0 ∨ x.w.toNat < sx + n ∨ sy < 0 ∨ x.h.toNat < sy + n then .raised .indexOutOfRange x
  else storeBlock x n col row fun r c i => (x.bank x.wr.other).read (pixelOff x (sx.toNat + c) (sy.toNat + r) + i)

/-! ## Sequencing -/

/-- Go on with the value of an operation, unless it raised or stuck. -/
def Res.andThen {α β : Type} (r : Res α) (k : α → Res β) : Res β :=
  match r with
  | .ok a => k a
  | .raised e x => .raised e x
  | .stuck f => .stuck f

/-- Replace the session in slot `h`. -/
def State.setSlot (s : State) (h : Nat) (x : Session) : State := { s with slots := s.slots.set h x }

/-- The command in progress completes with the answer `r` (20_memory R65). -/
def State.answer (s : State) (r : Result) : State := { s with phase := .idle, result := some r }

/-! ## The end of a chunk's registers (10_state R25) -/

/-- A session outside a chunk: the chunk, video and audio work registers, PAYLOAD, MCOMP, and AT unless AT_VALID is set,
hold no value outside the chunk that wrote them, whether it completed or trapped (10_state R25, R32, R36, R38,
40_chunk_reader R132, 93_implementation_defined U2), so they become FREE VALUES (log entry 2). -/
def retireChunk (k : Nat) (x : Session) : Session :=
  let u := Config.unspecifiedSession k
  { x with
    cType := u.cType
    cLen := u.cLen
    cAux0 := u.cAux0
    cAux1 := u.cAux1
    opw := u.opw
    opn := u.opn
    pptr := u.pptr
    leaf := u.leaf
    mdx := u.mdx
    mdy := u.mdy
    accL := u.accL
    accR := u.accR
    audioBuf := u.audioBuf
    audioPos := u.audioPos
    mcomp := u.mcomp
    addrTable := if x.atValid then x.addrTable else u.addrTable
    payload := u.payload }

/-! ## Trap entry (60_exceptions R290) -/

/-- `raise Fatal(code)` in a session: STATUS, ERR, ERR_OFF, HAS_FRAME (60_exceptions R290). -/
def trapEntry (code : ErrCode) (x : Session) : Session :=
  { x with status := .endOfStream, err := code, errOff := x.offset, hasFrame := false }

/-- What the command returns that a trap ends: START returns the handle, TICK returns EndOfStream (R290). -/
def trapAnswer : Phase → Result
  | .header h false => .handle h
  | _ => .status .endOfStream

/-- Trap entry: the slot takes it, the chunk and the catch-up loop are abandoned, the command returns (R290). There
is no return from a trap (R292). The registers of the abandoned chunk lose their values (10_state R25); RAWN, the tiles, a
valid AT and the banks stay as the partial execution left them, which R291 leaves to a model (log entry 11). -/
def raiseFatal (s : State) (h : Nat) (code : ErrCode) (x : Session) : State :=
  { (s.setSlot h (retireChunk s.freeCount (trapEntry code x))).answer (trapAnswer s.phase) with
    freeCount := s.freeCount + 1 }

/-- The state after an operation on slot `h`: its session is stored and the machine goes to phase `p`, or trap entry
happens. -/
def commit (s : State) (h : Nat) (p : Phase) (r : Res Session) : Host.Outcome State Fault Refusal :=
  match r with
  | .ok x => .next { s.setSlot h x with phase := p }
  | .raised e x => .next (raiseFatal s h e x)
  | .stuck f => .fault f

/-! ## The byte source (20_memory R62) -/

/-- `n` bytes of a list, 0 past its end. -/
def takeBytes : Nat → List Byte → List Byte
  | 0, _ => []
  | n + 1, [] => 0 :: takeBytes n []
  | n + 1, b :: t => b :: takeBytes n t

/-- `SrcRead(off, n)` (20_memory R62). -/
def srcRead (src : Source) (off n : Nat) : List Byte := takeBytes n (src.bytes.drop off)

/-- `SrcOpen(id)` (20_memory R62): the source, or none for NotFound. -/
def srcOpen (s : State) (id : Nat) : Option Source := s.sources.find? fun src => decide (src.id = id)

/-- The listed bytes of SRC: those below SRC_LEN (20_memory R62). -/
def Source.content (src : Source) : List Byte := src.bytes.take src.len

/-- Two lists hold the same bytes, with zeros after the listed ones. -/
def sameBytes : List Byte → List Byte → Bool
  | [], u => u.all fun b => decide (b = 0)
  | a :: t, [] => decide (a = 0) && sameBytes t []
  | a :: t, b :: u => decide (a = b) && sameBytes t u

/-- The source of a session, while its length and its bytes are those START opened (00_scope R9 (c), 20_memory R74,
93_implementation_defined U6). -/
def sourceOf (s : State) (x : Session) : Option Source :=
  match srcOpen s x.srcId with
  | some src => if src.len = x.srcLen.toNat ∧ sameBytes src.content x.srcBytes = true then some src else none
  | none => none

/-! ## The header parse (40_chunk_reader R137) -/

/-- OFFSET <- 0 and the length check of the header parse. -/
def openHeader (x : Session) : Res Session :=
  let x0 := { x with offset := 0 }
  if x.srcLen.toNat < Config.fileHdr then .raised .truncated x0 else .ok { x0 with inmem := decide (x.rawn ≠ 0) }

/-- FPS with the 0-means-30 default (40_chunk_reader R137). -/
def fpsOf (f : BitVec 16) : BitVec 16 := if f = 0 then Config.defaultFps else f

/-- The rest of the header parse: the magic is compared, FPS is loaded and OFFSET left at 8. -/
def loadHeader (p : Params) (magic fps : BitVec 16) (x : Session) : Res Session :=
  if magic ≠ p.magic then .raised .invalidMagic x else .ok { x with fps := fpsOf fps, offset := 8 }

/-- What a loop restart does after the header parse, and STATUS <- Looped (44_scheduler R226, R225). With N2 = N4 = 0 no
tile has a value any more (10_state R35): the tile memories become FREE VALUES (log entry 2). -/
def restartRegs (k : Nat) (x : Session) : Session :=
  { x with
    cb2 := (Config.unspecifiedSession k).cb2
    cb4 := (Config.unspecifiedSession k).cb4
    cb8 := (Config.unspecifiedSession k).cb8
    startTime := x.nowL
    decoded := 0
    target := 0
    first := true
    n2 := 0
    n4 := 0
    rawn := 0
    status := .looped }

/-! ## The chunk fetch and advance (40_chunk_reader R130, R132, R136) -/

/-- The bytes that remain at OFFSET. -/
def Session.remaining (x : Session) : Nat := x.srcLen.toNat - x.offset.toNat

/-- The checks of the chunk fetch, in the order of R130, and the chunk registers. -/
def openChunk (tag : BitVec 16) (hd : ChunkHdr) (x : Session) : Res Session :=
  if x.remaining < Config.chunkHdr then .raised .truncated x
  else
    let x1 :=
      { x with cType := tag, cLen := hd.len, cAux0 := hd.aux0, cAux1 := hd.aux1, inmem := decide (x.rawn ≠ 0) }
    if Config.maxChunk < hd.len.toNat then .raised .oversize x1
    else if x.remaining - Config.chunkHdr < hd.len.toNat then .raised .truncated x1
    else .ok x1

/-- The raw-packet countdown (40_chunk_reader R136). -/
def countRaw (rawn : BitVec 16) : BitVec 16 := if rawn = 0 then 0 else rawn - 1

/-- Copy the payload and count the raw-packet countdown down (40_chunk_reader R130, R136). -/
def loadPayload (src : Source) (x : Session) : Session :=
  { x with
    payload := srcRead src (x.offset.toNat + Config.chunkHdr) x.cLen.toNat
    rawn := countRaw x.rawn }

/-- The prologue every chunk shares: in phase `fetch`, the checks, the chunk registers, the payload, the countdown;
then the chunk's own rule `k` on the slot and its session (40_chunk_reader R130, R131). -/
def atChunk (s : State) (tag : BitVec 16) (hd : ChunkHdr)
    (k : Nat → Session → Host.Outcome State Fault Refusal) : Host.Outcome State Fault Refusal :=
  match s.phase with
  | .fetch h =>
    match s.slots[h]? with
    | none => .fault .noSuchSlot
    | some x =>
      match openChunk tag hd x with
      | .raised e x1 => .next (raiseFatal s h e x1)
      | .stuck f => .fault f
      | .ok x1 =>
        match sourceOf s x with
        | none => .refused .sourceChanged
        | some src => k h (loadPayload src x1)
  | _ => .refused .outOfPlace

/-- `OFFSET <- OFFSET + 8 + C_LEN` (40_chunk_reader R132). -/
def advance (x : Session) : Session :=
  { x with offset := BitVec.ofNat 32 (x.offset.toNat + Config.chunkHdr + x.cLen.toNat) }

/-- The end of a chunk: it advances, its registers lose their values, and the head of the catch-up loop is next; or trap
entry happens. -/
def endChunk (s : State) (h : Nat) (r : Res Session) : Host.Outcome State Fault Refusal :=
  match r with
  | .ok x =>
    .next
      { s.setSlot h (retireChunk s.freeCount (advance x)) with
        phase := .loop h
        freeCount := s.freeCount + 1 }
  | .raised e x => .next (raiseFatal s h e x)
  | .stuck f => .fault f

/-- A chunk whose tag is none of the seven: its fetch, then BadOpcode (40_chunk_reader R131, 60_exceptions R284). -/
def unknownChunk (tag : BitVec 16) (hd : ChunkHdr) (s : State) : Host.Outcome State Fault Refusal :=
  atChunk s tag hd fun h x => .next (raiseFatal s h .badOpcode x)

/-! ## The catch-up loop (44_scheduler R222 to R225) -/

/-- `target_of(t) = floor(max(t - START_TIME, 0) * FPS / 1000)` (44_scheduler R223). The subtraction of naturals is
the max. -/
def targetOf (x : Session) (t : BitVec 48) : BitVec 64 :=
  BitVec.ofNat 64 ((t.toNat - x.startTime.toNat) * x.fps.toNat / 1000)

/-- End of data (44_scheduler R225): HOLD first, then LOOP, else EndOfStream with HAS_FRAME cleared. In EndOfStream
the contents of both banks are unspecified (10_state R39). -/
def endOfData (s : State) (h : Nat) (x : Session) : State :=
  if x.holdFlag then { s.setSlot h { x with status := .idle } with phase := .loop h }
  else if x.loopFlag then { s with phase := .header h true }
  else
    { s.setSlot h
        { x with
          status := .endOfStream
          hasFrame := false
          fb0 := .unwritten s.freeCount
          fb1 := .unwritten (s.freeCount + 1) } with
      phase := .loop h
      freeCount := s.freeCount + 2 }

/-- The head of the catch-up loop: it goes on while STATUS is Play and DECODED < TARGET, with the end of data or the
next chunk; otherwise TICK returns STATUS (44_scheduler R222, R224, R225). -/
def loopHead (s : State) (h : Nat) (x : Session) : State :=
  if x.status = .play ∧ x.decoded.toNat < x.target.toNat then
    if x.srcLen.toNat ≤ x.offset.toNat then endOfData s h x else { s with phase := .fetch h }
  else s.answer (.status x.status)

/-! ## Frame completion and the end of an audio chunk -/

/-- frame_complete (43_quadtree_video R196): the seeding copy if FIRST, the presentable frame, the swap of the roles,
the count. MCOMP and the video work registers, dead from here on, lose their values at the end of the chunk
(`retireChunk`). -/
def frameComplete (x : Session) : Session :=
  let x1 :=
    if x.first then
      { x.setBank x.wr.other (Surface.copyArea x.area (x.bank x.wr) (x.bank x.wr.other)) with first := false }
    else x
  { x1 with
    disp := x.wr
    frW := x.w
    frH := x.h
    hasFrame := true
    wr := x.wr.other
    decoded := BitVec.ofNat 64 (x.decoded.toNat + 1) }

/-- The end of an audio chunk: one AudioPush unless no frame was produced (45_audio R266). -/
def pushAudio (p : Params) (x : Session) : Session :=
  if x.audioBuf = [] then x else { x with audioOut := x.audioOut ++ [⟨x.audioBuf, p.audioRate, 2⟩] }

/-- How many payload bytes an audio chunk steps: all of them, or for stereo an even number (45_audio R261, R262). -/
def deltaCount (stereo : Bool) (x : Session) : Nat :=
  if stereo then 2 * (x.cLen.toNat / 2) else x.cLen.toNat

/-! ## Slots -/

/-- The session of a valid handle (44_scheduler R234): below N_SESS, which is the number of slots, and IN_USE. -/
def session? (s : State) (handle : Nat) : Option Session :=
  match s.slots[handle]? with
  | some x => if x.inUse then some x else none
  | none => none

/-- A command on the session `x`: refused when its source is not the one START opened (00_scope R9 (c), 20_memory R74,
93_implementation_defined U6). -/
def onSession (s : State) (x : Session) (o : Host.Outcome State Fault Refusal) : Host.Outcome State Fault Refusal :=
  if (sourceOf s x).isSome then o else .refused .sourceChanged

/-- How many TICKs and STOPs of slot `h` were executed (log entry 16). -/
def State.lease (s : State) (h : Nat) : Nat := s.leases.getD h 0

/-- A TICK or STOP of slot `h`: the frame references of the slot are good no more (70_reset R329). -/
def State.expireRefs (s : State) (h : Nat) : State := { s with leases := s.leases.set h (s.lease h + 1) }

/-- The session START makes, before the header parse: the right-hand column of 10_state R44 (44_scheduler R221 (3)).
What is unspecified there is a free value (log entry 2). -/
def startSession (p : Params) (k : Nat) (src : Source) (x y w h : BitVec 32) (flags : BitVec 4) (now : BitVec 48) :
    Session :=
  latchFlags flags
    { Config.unspecifiedSession k with
      inUse := true
      status := .play
      err := .none
      errOff := 0
      srcId := src.id
      srcLen := BitVec.ofNat 32 src.len
      srcBytes := src.content
      offset := 0
      bpp := p.cfgBpp
      mode := 0
      dstX := x
      dstY := y
      dstW := w
      dstH := h
      startTime := now
      nowL := now
      w := 0
      h := 0
      decoded := 0
      target := 0
      n2 := 0
      n4 := 0
      rawn := 0
      atValid := false
      atN := 0
      wr := .bank0
      first := true
      hasFrame := false
      fb0 := .unwritten k
      fb1 := .unwritten (k + 1)
      audioOut := [] }

/-- A slot after STOP (44_scheduler R228): STATUS, HAS_FRAME and IN_USE are written, everything else is unspecified. -/
def releasedSession (k : Nat) : Session :=
  { Config.unspecifiedSession k with
    inUse := false
    status := .endOfStream
    hasFrame := false
    fb0 := .unwritten k
    fb1 := .unwritten (k + 1) }

end Sys2Proof.Machine
end

