-- ==== Sys2Proof/Machine/Color.lean ====
section
/-! DEFINITION. The colour ROMs and the pixel conversions CONV1, CONV2, CONV4 (41_color_tables). -/

namespace Sys2Proof.Machine

/-- `trunc(n / d)`, rounding toward zero (41_color_tables R155). -/
def truncDiv (n d : Int) : Int := n.tdiv d

/-- `clamp(v, lo, hi)` (00_scope R8). -/
def clamp (v lo hi : Int) : Int := min (max v lo) hi

/-- `x = 2*i - 255` (41_color_tables R155). -/
def chroma (i : Byte) : Int := 2 * (i.toNat : Int) - 255

/-- `YY_TAB[i] = 64*i + floor(i/4)`: the reference definition (41_color_tables R155). -/
def yyTab (i : Byte) : Int := 64 * (i.toNat : Int) + ((i.toNat / 4 : Nat) : Int)

/-- `UB_TAB[i] = trunc(57.204*x + 32)`: the reference definition (R155). -/
def ubTab (i : Byte) : Int := truncDiv (57204 * chroma i + 32000) 1000

/-- `VR_TAB[i] = trunc(45.364*x + 32)`: the reference definition (R155). -/
def vrTab (i : Byte) : Int := truncDiv (45364 * chroma i + 32000) 1000

/-- `UG_TAB[i] = trunc(-11.51248*x)`: the reference definition (R155). -/
def ugTab (i : Byte) : Int := truncDiv (-1151248 * chroma i) 100000

/-- `VG_TAB[i] = trunc(-23.35248*x + 32)`: the reference definition (R155). -/
def vgTab (i : Byte) : Int := truncDiv (-2335248 * chroma i + 3200000) 100000

/-- A colour component: the sum of its table entries shifted right by `k` (floor) and clamped to 0..hi (R155). -/
def component (sum : Int) (k : Nat) (hi : Int) : Nat := (clamp (sum / 2 ^ k) 0 hi).toNat

/-- CONV2 by the reference definition: red in bits 15..11, green in 10..5, blue in 4..0 (R153, R155). -/
def refConv2 (y u v : Byte) : BitVec 16 :=
  BitVec.ofNat 16
    (2048 * component (yyTab y + vrTab v) 9 31 + 32 * component (yyTab y + ugTab u + vgTab v) 8 63
      + component (yyTab y + ubTab u) 9 31)

/-- CONV4 by the reference definition: bytes R, G, B, A with A = 255 (R154, R155). -/
def refConv4 (y u v : Byte) : BitVec 32 :=
  BitVec.ofNat 32
    (component (yyTab y + vrTab v) 6 255 + 256 * component (yyTab y + ugTab u + vgTab v) 6 255
      + 65536 * component (yyTab y + ubTab u) 6 255 + 16777216 * 255)

/-- CONV1 (41_color_tables R152). -/
def conv1 (y _u _v : Byte) : Byte := y

/-- CONV2 of the instance (41_color_tables R151). -/
def conv2 (sel : ConvSel) (y u v : Byte) : BitVec 16 :=
  match sel with
  | .reference => refConv2 y u v
  | .custom k => Config.conv2 k y u v

/-- CONV4 of the instance (41_color_tables R151). -/
def conv4 (sel : ConvSel) (y u v : Byte) : BitVec 32 :=
  match sel with
  | .reference => refConv4 y u v
  | .custom k => Config.conv4 k y u v

/-- CONV, the conversion BPP selects (41_color_tables R151, 42_codebook R172). -/
def conv (sel : ConvSel) (d : Depth) (y u v : Byte) : Pixel :=
  match d with
  | .one => (conv1 y u v).setWidth 32
  | .two => (conv2 sel y u v).setWidth 32
  | .four => conv4 sel y u v

end Sys2Proof.Machine
end

