-- ==== Sys2Proof/Machine/Operands.lean ====
section
/-! DEFINITION. The operands: opcode and operand bytes of a VIDEO payload, motion table, address table, codebook counts
and records, INFO fields, audio seeds and deltas (30_encoding, 43_quadtree_video R180 to R185, 45_audio R260, R264). -/

namespace Sys2Proof.Machine

/-- `C_AUX = C_AUX1 || C_AUX0` (10_state R22). -/
def Session.cAux (x : Session) : BitVec 16 := le16 x.cAux0 x.cAux1

/-! ## The opcode cache and the payload pointer (43_quadtree_video R184, R185) -/

/-- Take the top opcode of the cache (R184). -/
def takeOpcode (x : Session) : BitVec 2 × Session :=
  (x.opw.extractLsb' 14 2, { x with opw := x.opw <<< 2, opn := x.opn - 1 })

/-- next_opcode (R184): a word is fetched only when an opcode is asked for and none is left. -/
def nextOpcode (x : Session) : Res (BitVec 2 × Session) :=
  if x.opn = 0 then
    if x.cLen.toNat < x.pptr.toNat + 2 then .raised .truncated x
    else
      match x.payload[x.pptr.toNat]?, x.payload[x.pptr.toNat + 1]? with
      | some b0, some b1 =>
        .ok (takeOpcode { x with opw := le16 b0 b1, pptr := BitVec.ofNat 17 (x.pptr.toNat + 2), opn := 8 })
      | _, _ => .stuck .noEntry
  else .ok (takeOpcode x)

/-- next_byte (R185): the operand byte PAYLOAD[PPTR], post-incrementing PPTR (R202). -/
def nextByte (x : Session) : Res (Byte × Session) :=
  if x.cLen.toNat < x.pptr.toNat + 1 then .raised .truncated x
  else
    match x.payload[x.pptr.toNat]? with
    | some b => .ok (b, { x with pptr := BitVec.ofNat 17 (x.pptr.toNat + 1) })
    | none => .stuck .noEntry

/-! ## The motion table (43_quadtree_video R182) -/

/-- A motion base: the aux byte read as signed, clamped to -8..7 (R182, 30_encoding R94). -/
def motionBase (aux : Byte) : BitVec 4 := BitVec.ofInt 4 (clamp aux.toInt (-8) 7)

/-- `MCOMP[b]` for the bases MDX, MDY (R182, 30_encoding R103). -/
def motionEntry (mdx mdy : BitVec 4) (b : Nat) : Int × Int :=
  (8 - ((b / 16 : Nat) : Int) - mdx.toInt, 8 - ((b % 16 : Nat) : Int) - mdy.toInt)

/-- MCOMP[0..255] (R182). -/
def motionTable (mdx mdy : BitVec 4) : List (Int × Int) := (List.range 256).map (motionEntry mdx mdy)

/-! ## The address table (43_quadtree_video R180) -/

/-- The five entries of the 8x8 node at (x, y), or nothing when it is not wholly inside the W x H area (R180). -/
def nodeEntries (w h x y : Nat) : List (Nat × Nat) :=
  if x + 8 ≤ w ∧ y + 8 ≤ h then [(x, y), (x, y), (x + 4, y), (x, y + 4), (x + 4, y + 4)] else []

/-- The columns and rows, in blocks, of the 8x8 blocks of a macroblock that is quartered `n` times, depth first: the
quarters in the order top-left, top-right, bottom-left, bottom-right (R180). For the 16x16 macroblock, `n = 1`, they are
R180's four blocks; for another edge the order is Z order too, DESIGN CHOICE (log entry 27). -/
def zOrder : Nat → List (Nat × Nat)
  | 0 => [(0, 0)]
  | n + 1 =>
    (List.range 4).flatMap fun q => (zOrder n).map fun b => (2 ^ n * (q % 2) + b.1, 2 ^ n * (q / 2) + b.2)

/-- gen_table (R180): macroblocks of edge MB row by row, the 8x8 blocks of each depth first. -/
def genTable (p : Params) (w h : Nat) : List (Nat × Nat) :=
  (List.range ((h + p.mb - 1) / p.mb)).flatMap fun j =>
    (List.range ((w + p.mb - 1) / p.mb)).flatMap fun i =>
      (zOrder p.mbLevels).flatMap fun b => nodeEntries w h (p.mb * i + 8 * b.1) (p.mb * j + 8 * b.2)

/-- Regeneration of AT when it is stale (R181). -/
def refreshTable (p : Params) (x : Session) : Session :=
  if x.atValid then x
  else
    let t := genTable p x.w.toNat x.h.toNat
    { x with addrTable := t, atN := t.length / 5, atValid := true }

/-- The position of AT entry `i` (R183). -/
def tableEntry (x : Session) (i : Nat) : Res (Nat × Nat) :=
  match x.addrTable[i]? with
  | some e => .ok e
  | none => .stuck .noEntry

/-- Entry `b` of MCOMP (R194). -/
def motionLookup (x : Session) (b : Byte) : Res (Int × Int) :=
  match x.mcomp[b.toNat]? with
  | some m => .ok m
  | none => .stuck .noEntry

/-- The tile with code `k`, which must be below the count `n` (42_codebook R165, 43_quadtree_video R188, R192, R193;
60_exceptions R285). -/
def tileLookup (x : Session) (cb : List Tile) (n : BitVec 9) (k : Byte) : Res Tile :=
  if n.toNat ≤ k.toNat then .raised .indexOutOfRange x
  else
    match cb[k.toNat]? with
    | some t => .ok t
    | none => .stuck .noEntry

/-! ## CODEBOOK (30_encoding R97, R98; 42_codebook R161 to R164) -/

/-- The counts (n2, n4) of the aux field, bounded to the table capacity (30_encoding R97, 42_codebook R161). -/
def codebookCounts (aux0 aux1 : Byte) : Nat × Nat :=
  if aux0 = 0 ∧ aux1 = 0 then (256, 256)
  else (min (if aux1 = 0 then 256 else aux1.toNat) 256, min aux0.toNat 256)

/-- The 2x2 tile of a record y0 y1 y2 y3 u v (42_codebook R162). -/
def tile2 (sel : ConvSel) (d : Depth) (y0 y1 y2 y3 u v : Byte) : Tile :=
  [[conv sel d y0 u v, conv sel d y1 u v], [conv sel d y2 u v, conv sel d y3 u v]]

/-- The first `n` records of the payload as 2x2 tiles, and the rest of the payload (30_encoding R98). -/
def build2 (sel : ConvSel) (d : Depth) : Nat → List Byte → List Tile × List Byte
  | n + 1, y0 :: y1 :: y2 :: y3 :: u :: v :: rest =>
    let r := build2 sel d n rest
    (tile2 sel d y0 y1 y2 y3 u v :: r.1, r.2)
  | _, rest => ([], rest)

/-- The 4x4 tile of the quadrants a (top-left), b (top-right), c (bottom-left), d (bottom-right) (42_codebook R163). -/
def tile4 (a b c d : Tile) : Tile :=
  Tile.make 4 fun r cc =>
    if r < 2 then (if cc < 2 then a.px r cc else b.px r (cc - 2))
    else (if cc < 2 then c.px (r - 2) cc else d.px (r - 2) (cc - 2))

/-- The 8x8 tile: every pixel of the 4x4 tile doubled across and down (42_codebook R164). -/
def tile8 (t : Tile) : Tile := Tile.make 8 fun r c => t.px (r / 2) (c / 2)

/-- The 4x4 tiles of the seed records, up to the first record with a seed at or above n2, and whether there was none
(42_codebook R163, R167). -/
def build4 (cb2 : List Tile) (n2 : Nat) : Nat → List Byte → List Tile × Bool
  | k + 1, a :: b :: c :: d :: rest =>
    if n2 ≤ a.toNat ∨ n2 ≤ b.toNat ∨ n2 ≤ c.toNat ∨ n2 ≤ d.toNat then ([], false)
    else
      let r := build4 cb2 n2 k rest
      (tile4 (cb2.getD a.toNat []) (cb2.getD b.toNat []) (cb2.getD c.toNat []) (cb2.getD d.toNat []) :: r.1, r.2)
  | _, _ => ([], true)

/-! ## Audio (45_audio R260, R264) -/

/-- The ROM SQR (45_audio R260). -/
def sqr (b : Byte) : Int :=
  if b.toNat < 128 then (b.toNat : Int) * b.toNat else -(((b.toNat : Int) - 128) * ((b.toNat : Int) - 128))

/-- `(ACC + SQR[d]) mod 65536` (45_audio R263). -/
def stepAcc (acc : BitVec 16) (d : Byte) : BitVec 16 := acc + BitVec.ofInt 16 (sqr d)

/-- The constant `signed_output` subtracts from a seed (45_audio R264). -/
def seedBias (p : Params) : BitVec 16 := if p.cfgSignedOut then 0x8000 else 0

/-- The mono seed (45_audio R264). -/
def monoSeed (p : Params) (x : Session) : BitVec 16 := x.cAux - seedBias p

/-- The stereo seed of a channel: its aux byte as the high byte (45_audio R264). -/
def stereoSeed (p : Params) (aux : Byte) : BitVec 16 := le16 0 aux - seedBias p

end Sys2Proof.Machine
end

