-- ==== Sys2Proof/Machine/Audio.lean ====
section
/-! DEFINITION. The meaning of an audio byte, DELTA (45_audio R263), in the order AUDIO_MONO and AUDIO_STEREO give the
bytes (R261, R262). -/

namespace Sys2Proof.Machine

/-- A mono byte: ACC_L steps and the sample is appended twice, left then right (45_audio R261). -/
def deltaMono (d : Byte) (x : Session) : Session :=
  let acc := stepAcc x.accL d
  { x with accL := acc, audioBuf := x.audioBuf ++ [acc.toInt, acc.toInt], audioPos := x.audioPos + 1 }

/-- A left byte of a stereo chunk: ACC_L steps (45_audio R262). -/
def deltaLeft (d : Byte) (x : Session) : Session :=
  let acc := stepAcc x.accL d
  { x with accL := acc, audioBuf := x.audioBuf ++ [acc.toInt], audioPos := x.audioPos + 1 }

/-- A right byte of a stereo chunk: ACC_R steps (45_audio R262). -/
def deltaRight (d : Byte) (x : Session) : Session :=
  let acc := stepAcc x.accR d
  { x with accR := acc, audioBuf := x.audioBuf ++ [acc.toInt], audioPos := x.audioPos + 1 }

/-- The accumulator a byte steps: mono ACC_L; stereo ACC_L for byte 2i and ACC_R for byte 2i+1 (45_audio R261, R262). -/
def deltaStep (stereo : Bool) (d : Byte) (x : Session) : Session :=
  if stereo then (if x.audioPos % 2 = 0 then deltaLeft d x else deltaRight d x) else deltaMono d x

/-- DELTA (45_audio R263). -/
def execDelta (d : Byte) (s : State) : Host.Outcome State Fault Refusal :=
  match s.phase with
  | .audio h stereo =>
    match s.slots[h]? with
    | some x => commit s h (.audio h stereo) (.ok (deltaStep stereo d x))
    | none => .fault .noSuchSlot
  | _ => .refused .outOfPlace

end Sys2Proof.Machine
end

