-- ==== Sys2Proof/Machine/Chunks.lean ====
section
/-! DEFINITION. The meanings of FILEHDR and of the chunks INFO, CODEBOOK, VIDEO, HANG, AUDIO_MONO, AUDIO_STEREO, PACKET
(40_chunk_reader, 42_codebook, 43_quadtree_video R183, 45_audio R261, R262). -/

namespace Sys2Proof.Machine

/-- FILEHDR (40_chunk_reader R137), with what follows the parse: START returns the handle (44_scheduler R221 (5)), a
loop restart goes on to Looped (R226). -/
def execFilehdr (magic : BitVec 16) (_unused : BitVec 32) (fps : BitVec 16) (s : State) :
    Host.Outcome State Fault Refusal :=
  match s.phase with
  | .header h restart =>
    match s.slots[h]? with
    | none => .fault .noSuchSlot
    | some x =>
      match (openHeader x).andThen (loadHeader s.cfg magic fps) with
      | .ok x1 =>
        if restart then
          .next
            { s.setSlot h (restartRegs s.freeCount x1) with
              phase := .loop h
              freeCount := s.freeCount + 1 }
        else .next ((s.setSlot h x1).answer (.handle h))
      | .raised e x1 => .next (raiseFatal s h e x1)
      | .stuck f => .fault f
  | _ => .refused .outOfPlace

/-- The frame size an INFO declares is taken: W, H, AT_VALID and FIRST change only when it differs, TARGET is
recomputed from NOW_L (40_chunk_reader R133). -/
def declareSize (w h : BitVec 16) (x : Session) : Session :=
  let x1 := if w ≠ x.w ∨ h ≠ x.h then { x with w := w, h := h, atValid := false, first := true } else x
  { x1 with target := targetOf x1 x1.nowL }

/-- do_info (40_chunk_reader R133). -/
def doInfo (p : Params) (x : Session) : Res Session :=
  if x.cLen.toNat < 4 then .raised .truncated x
  else
    match x.payload with
    | b0 :: b1 :: b2 :: b3 :: _ =>
      let w := le16 b0 b1
      let h := le16 b2 b3
      if p.maxW < w.toNat ∨ p.maxH < h.toNat then .raised .indexOutOfRange x
      else if p.cfgHalf = true ∨ (h.toNat ≠ 0 ∧ w.toNat = 4 * h.toNat) then .raised .modeUnsupported x
      else .ok (declareSize w h x)
    | _ => .stuck .noEntry

/-- INFO (40_chunk_reader R133). -/
def execInfo (hd : ChunkHdr) (s : State) : Host.Outcome State Fault Refusal :=
  atChunk s s.cfg.tagInfo hd fun h x => endChunk s h (doInfo s.cfg x)

/-- do_codebook (42_codebook R160 to R165, R167). On a bad seed CB2 and the tiles before it are written and the counts
are not (R167). That the old entries are dropped then, of CB2 from n2 up and of CB4 and CB8 from the bad record on, is the
model's choice (DESIGN CHOICE, log entry 10): 60_exceptions R291 lets a model keep or discard them. -/
def doCodebook (p : Params) (x : Session) : Res Session :=
  let n := codebookCounts x.cAux0 x.cAux1
  if x.cLen.toNat < 6 * n.1 + 4 * n.2 then .raised .truncated x
  else
    let r2 := build2 p.conv x.bpp n.1 x.payload
    let r4 := build4 r2.1 n.1 n.2 r2.2
    let x1 := { x with cb2 := r2.1, cb4 := r4.1, cb8 := r4.1.map tile8 }
    if r4.2 then .ok { x1 with n2 := BitVec.ofNat 9 n.1, n4 := BitVec.ofNat 9 n.2 }
    else .raised .indexOutOfRange x1

/-- CODEBOOK (42_codebook R160). -/
def execCodebook (hd : ChunkHdr) (s : State) : Host.Outcome State Fault Refusal :=
  atChunk s s.cfg.tagCodebook hd fun h x => endChunk s h (doCodebook s.cfg x)

/-- The prologue of a VIDEO chunk: AT if stale, MDX, MDY and MCOMP, the opcode cache emptied, the payload pointer
rewound, the first node (43_quadtree_video R183). -/
def openVideo (p : Params) (x : Session) : Session :=
  let x1 := refreshTable p x
  let mdx := motionBase x.cAux1
  let mdy := motionBase x.cAux0
  { x1 with mdx := mdx, mdy := mdy, mcomp := motionTable mdx mdy, opn := 0, pptr := 0, leaf := 0 }

/-- VIDEO (43_quadtree_video R183): the prologue. The opcodes of the nodes follow, one a step, then the completion of
the frame (`frameComplete`). -/
def execVideo (hd : ChunkHdr) (s : State) : Host.Outcome State Fault Refusal :=
  atChunk s s.cfg.tagVideo hd fun h x => commit s h (.video h .node) (.ok (openVideo s.cfg x))

/-- HANG (40_chunk_reader R134): nothing beyond the fetch and the advance. -/
def execHang (hd : ChunkHdr) (s : State) : Host.Outcome State Fault Refusal :=
  atChunk s s.cfg.tagHang hd fun h x => endChunk s h (.ok x)

/-- AUDIO_MONO (45_audio R261): skipped when SILENT (R265); otherwise ACC_L is seeded and the payload bytes follow as
DELTA steps, then the push (`pushAudio`). -/
def execAudioMono (hd : ChunkHdr) (s : State) : Host.Outcome State Fault Refusal :=
  atChunk s s.cfg.tagAudioMono hd fun h x =>
    if x.silentFlag then endChunk s h (.ok x)
    else commit s h (.audio h false) (.ok { x with accL := monoSeed s.cfg x, audioBuf := [], audioPos := 0 })

/-- AUDIO_STEREO (45_audio R262): as AUDIO_MONO with both accumulators seeded. -/
def execAudioStereo (hd : ChunkHdr) (s : State) : Host.Outcome State Fault Refusal :=
  atChunk s s.cfg.tagAudioStereo hd fun h x =>
    if x.silentFlag then endChunk s h (.ok x)
    else
      commit s h (.audio h true)
        (.ok
          { x with
            accL := stereoSeed s.cfg x.cAux1
            accR := stereoSeed s.cfg x.cAux0
            audioBuf := []
            audioPos := 0 })

/-- PACKET (40_chunk_reader R135). -/
def execPacket (hd : ChunkHdr) (s : State) : Host.Outcome State Fault Refusal :=
  atChunk s s.cfg.tagPacket hd fun h x => endChunk s h (.ok { x with rawn := x.cAux })

end Sys2Proof.Machine
end

