-- ==== Sys2Proof/Machine/Commands.lean ====
section
/-! DEFINITION. The meanings of the host commands START, TICK, STOP, GETFRAME, RESUME (44_scheduler). -/

namespace Sys2Proof.Machine

/-- START, steps (1) to (3) of 44_scheduler R221: the lowest free slot, SrcOpen, the session reset. The header parse
(4) is FILEHDR, in phase `header`; it ends the command with the handle (5). -/
def execStart (srcId : Nat) (x y w h : BitVec 32) (flags : BitVec 4) (now : BitVec 48) (s : State) :
    Host.Outcome State Fault Refusal :=
  if s.phase = .idle then
    match s.slots.findIdx? fun slot => !slot.inUse with
    | none => .next (s.answer (.error .noSlot))
    | some i =>
      match srcOpen s srcId with
      | none => .next (s.answer (.error .notFound))
      | some src =>
        if src.len = 0 then .next (s.answer (.error .zeroLength))
        else if 2 ^ 32 ≤ src.len then .refused .sourceTooLong
        else
          .next
            { s.setSlot i (startSession s.cfg s.freeCount src x y w h flags now) with
              phase := .header i false
              result := none
              freeCount := s.freeCount + 2 }
  else .refused .commandWhileBusy

/-- The session of a TICK that enters the catch-up loop: Looped becomes Play (R227), TARGET is computed (R223). -/
def wakeSession (now : BitVec 48) (x : Session) : Session :=
  let x1 := { x with nowL := now, status := .play }
  { x1 with target := targetOf x1 now }

/-- TICK (44_scheduler R222) up to the head of the catch-up loop, which the scheduler's steps take from there
(`loopHead`). A session in EndOfStream or Idle returns its STATUS and decodes nothing. Either way the frame references of
the slot are good no more (70_reset R329). A session whose source changed is refused (93_implementation_defined U6), by
GETFRAME and RESUME too. -/
def execTick (handle : Nat) (now : BitVec 48) (s : State) : Host.Outcome State Fault Refusal :=
  if s.phase = .idle then
    match session? s handle with
    | none => .next (s.answer (.status .endOfStream))
    | some x =>
      onSession s x
        (if x.status = .endOfStream ∨ x.status = .idle then
          .next (((s.setSlot handle { x with nowL := now }).expireRefs handle).answer (.status x.status))
        else
          .next
            { (s.setSlot handle (wakeSession now x)).expireRefs handle with
              phase := .loop handle
              result := none })
  else .refused .commandWhileBusy

/-- STOP (44_scheduler R228), whatever the slot's state and its source: from here on the host may change the source
(20_memory R74). The frame references of the slot are good no more (70_reset R329). -/
def execStop (handle : Nat) (s : State) : Host.Outcome State Fault Refusal :=
  if s.phase = .idle then
    match session? s handle with
    | none => .next (s.answer (.status .endOfStream))
    | some _ =>
      .next
        { ((s.setSlot handle (releasedSession s.freeCount)).expireRefs handle).answer (.status .endOfStream) with
          freeCount := s.freeCount + 2 }
  else .refused .commandWhileBusy

/-- The FrameRef of the session `x` in slot `handle` (44_scheduler R231), good from now until the next TICK or STOP of the
slot (70_reset R329). -/
def frameRef (s : State) (handle : Nat) (x : Session) : FrameRef where
  handle := handle
  lease := s.lease handle
  bank := x.disp
  base := 0
  width := x.frW.toNat
  height := x.frH.toNat
  line := x.frW.toNat * x.bpp.bytes
  bpp := x.bpp
  x := x.dstX
  y := x.dstY
  w := x.dstW
  h := x.dstH

/-- GETFRAME (44_scheduler R231). -/
def execGetframe (handle : Nat) (s : State) : Host.Outcome State Fault Refusal :=
  if s.phase = .idle then
    match session? s handle with
    | none => .next (s.answer .noFrame)
    | some x => onSession s x (.next (s.answer (if x.hasFrame then .frame (frameRef s handle x) else .noFrame)))
  else .refused .commandWhileBusy

/-- RESUME (44_scheduler R229): Idle becomes Play, nothing else. -/
def resumed (x : Session) : Session := if x.status = .idle then { x with status := .play } else x

/-- RESUME (44_scheduler R229). -/
def execResume (handle : Nat) (s : State) : Host.Outcome State Fault Refusal :=
  if s.phase = .idle then
    match session? s handle with
    | none => .next (s.answer (.status .endOfStream))
    | some x => onSession s x (.next ((s.setSlot handle (resumed x)).answer (.status (resumed x).status)))
  else .refused .commandWhileBusy

/-- The byte the host reads at offset `o` through a frame reference, if the reference covers it (44_scheduler R231,
10_state R40): the bank's byte while the reference is good, a FREE VALUE once it is stale (70_reset R329,
93_implementation_defined U17). Reading changes nothing (20_memory R66). -/
def FrameRef.read (f : FrameRef) (s : State) (o : Nat) : Option Byte :=
  if o < f.height * f.line then
    match s.slots[f.handle]? with
    | some x =>
      some (if s.lease f.handle = f.lease then (x.bank f.bank).read (f.base + o) else Config.staleByte s f o)
    | none => none
  else none

end Sys2Proof.Machine
end

