-- ==== Sys2Proof/Machine/Video.lean ====
section
/-! DEFINITION. The meanings of the eight video opcodes (43_quadtree_video R186 to R193). The opcode itself has been
taken from the cache by the fetch (R184); operand bytes are read here (R185). -/

namespace Sys2Proof.Machine

/-- An opcode for an 8x8 node: the operation on the session of the slot whose VIDEO chunk is at a node, then the
position `next h`. -/
def atNode (s : State) (next : Nat → Phase) (k : Session → Res Session) : Host.Outcome State Fault Refusal :=
  match s.phase with
  | .video h .node =>
    match s.slots[h]? with
    | some x => commit s h (next h) (k x)
    | none => .fault .noSuchSlot
  | _ => .refused .outOfPlace

/-- The position after child `j`: the next child, or the next node (43_quadtree_video R189). -/
def afterChild (h : Nat) (j : Fin 4) : Phase :=
  if j = 0 then .video h (.child 1)
  else if j = 1 then .video h (.child 2)
  else if j = 2 then .video h (.child 3)
  else .video h .node

/-- LEAF steps on (43_quadtree_video R183). -/
def nextLeaf (x : Session) : Session := { x with leaf := x.leaf + 1 }

/-- LEAF after child `j`: it steps on after the last child only. -/
def leafAfterChild (j : Fin 4) (x : Session) : Session := if j = 3 then nextLeaf x else x

/-- An opcode for a 4x4 child: the operation on the session with the child number, then the next child or node. -/
def atChild (s : State) (k : Fin 4 → Session → Res Session) : Host.Outcome State Fault Refusal :=
  match s.phase with
  | .video h (.child j) =>
    match s.slots[h]? with
    | some x => commit s h (afterChild h j) ((k j x).andThen fun x1 => .ok (leafAfterChild j x1))
    | none => .fault .noSuchSlot
  | _ => .refused .outOfPlace

/-- `b <- next_byte()` then `motion(n, x, y, b)` at AT entry `i` (43_quadtree_video R187, R191, R194). -/
def motionBlock (n i : Nat) (x : Session) : Res Session :=
  (nextByte x).andThen fun bx =>
    (tableEntry bx.2 i).andThen fun e =>
      (motionLookup bx.2 bx.1).andThen fun m => motionFrom bx.2 n e.1 e.2 m

/-- `k <- next_byte()`, the check against N4, then the blit of tile `k` at AT entry `i` (R188, R192, R195). -/
def vqBlock (n i : Nat) (cb : List Tile) (x : Session) : Res Session :=
  (nextByte x).andThen fun kx =>
    (tileLookup kx.2 cb x.n4 kx.1).andThen fun t =>
      (tableEntry kx.2 i).andThen fun e => blit kx.2 t n e.1 e.2

/-- One quadrant of QUAD2: `k <- next_byte()`, the check against N2, then the blit of the 2x2 tile (R193). -/
def quadBlock (col row : Nat) (x : Session) : Res Session :=
  (nextByte x).andThen fun kx =>
    (tileLookup kx.2 x.cb2 x.n2 kx.1).andThen fun t => blit kx.2 t 2 col row

/-- The four quadrants of QUAD2 in the order top-left, top-right, bottom-left, bottom-right (R193). -/
def quadBlocks (i : Nat) (x : Session) : Res Session :=
  (tableEntry x i).andThen fun e =>
    (quadBlock e.1 e.2 x).andThen fun x1 =>
      (quadBlock (e.1 + 2) e.2 x1).andThen fun x2 =>
        (quadBlock e.1 (e.2 + 2) x2).andThen fun x3 => quadBlock (e.1 + 2) (e.2 + 2) x3

/-- SKIP8 (R186): no read and no write. -/
def execSkip8 (s : State) : Host.Outcome State Fault Refusal :=
  atNode s (fun h => .video h .node) fun x => .ok (nextLeaf x)

/-- MOT8 (R187). -/
def execMot8 (s : State) : Host.Outcome State Fault Refusal :=
  atNode s (fun h => .video h .node) fun x => (motionBlock 8 (5 * x.leaf) x).andThen fun x1 => .ok (nextLeaf x1)

/-- VQ8 (R188). -/
def execVq8 (s : State) : Host.Outcome State Fault Refusal :=
  atNode s (fun h => .video h .node) fun x => (vqBlock 8 (5 * x.leaf) x.cb8 x).andThen fun x1 => .ok (nextLeaf x1)

/-- SUB8 (R189): nothing is consumed; the four children follow. -/
def execSub8 (s : State) : Host.Outcome State Fault Refusal :=
  atNode s (fun h => .video h (.child 0)) fun x => .ok x

/-- SKIP4 (R190): no read and no write. -/
def execSkip4 (s : State) : Host.Outcome State Fault Refusal :=
  atChild s fun _ x => .ok x

/-- MOT4 (R191). -/
def execMot4 (s : State) : Host.Outcome State Fault Refusal :=
  atChild s fun j x => motionBlock 4 (5 * x.leaf + 1 + j.val) x

/-- VQ4 (R192). -/
def execVq4 (s : State) : Host.Outcome State Fault Refusal :=
  atChild s fun j x => vqBlock 4 (5 * x.leaf + 1 + j.val) x.cb4 x

/-- QUAD2 (R193). -/
def execQuad2 (s : State) : Host.Outcome State Fault Refusal :=
  atChild s fun j x => quadBlocks (5 * x.leaf + 1 + j.val) x

end Sys2Proof.Machine
end

