-- ==== Sys2Proof/Machine/Dispatch.lean ====
section
/-! DEFINITION. The dispatch of the instructions to their meanings, one arm per constructor. -/

namespace Sys2Proof.Machine

def exec (i : Instr) (s : State) : Host.Outcome State Fault Refusal :=
  match i with
  | .filehdr magic unused fps => Sys2Proof.Machine.execFilehdr magic unused fps s
  | .info hd => Sys2Proof.Machine.execInfo hd s
  | .codebook hd => Sys2Proof.Machine.execCodebook hd s
  | .video hd => Sys2Proof.Machine.execVideo hd s
  | .hang hd => Sys2Proof.Machine.execHang hd s
  | .audioMono hd => Sys2Proof.Machine.execAudioMono hd s
  | .audioStereo hd => Sys2Proof.Machine.execAudioStereo hd s
  | .packet hd => Sys2Proof.Machine.execPacket hd s
  | .skip8 => Sys2Proof.Machine.execSkip8 s
  | .mot8 => Sys2Proof.Machine.execMot8 s
  | .vq8 => Sys2Proof.Machine.execVq8 s
  | .sub8 => Sys2Proof.Machine.execSub8 s
  | .skip4 => Sys2Proof.Machine.execSkip4 s
  | .mot4 => Sys2Proof.Machine.execMot4 s
  | .vq4 => Sys2Proof.Machine.execVq4 s
  | .quad2 => Sys2Proof.Machine.execQuad2 s
  | .delta d => Sys2Proof.Machine.execDelta d s
  | .start srcId x y w h flags now => Sys2Proof.Machine.execStart srcId x y w h flags now s
  | .tick handle now => Sys2Proof.Machine.execTick handle now s
  | .stop handle => Sys2Proof.Machine.execStop handle s
  | .getframe handle => Sys2Proof.Machine.execGetframe handle s
  | .resume handle => Sys2Proof.Machine.execResume handle s

end Sys2Proof.Machine
end

