-- ==== Sys2Proof/Machine/Fetch.lean ====
section
/-! DEFINITION. What the machine finds at the place where it stands: an encoded instruction, or a move of the scheduler
that decodes nothing; and what an undecodable object does. -/

namespace Sys2Proof.Machine

/-- Phase idle: the command on the port (30_encoding R107), or nothing to do (60_exceptions R299). -/
def fetchCommand (s : State) : Fetched :=
  match s.port with
  | none => .done (.next s)
  | some c => .instr (.hostCmd c) { s with port := none }

/-- The file header (40_chunk_reader R137): Truncated when 16 bytes are not there, else all 16 are read (20_memory R64)
and bytes 0..7 of them are FILEHDR (30_encoding R91). -/
def fetchHeader (s : State) (h : Nat) (src : Source) (x : Session) : Fetched :=
  match openHeader x with
  | .raised e x1 => .done (.next (raiseFatal s h e x1))
  | .stuck f => .done (.fault f)
  | .ok _ => .instr (.fileHdr ((srcRead src 0 Config.fileHdr).take 8)) s

/-- A chunk header (40_chunk_reader R130): Truncated when fewer than 8 bytes remain at OFFSET, else the 8 bytes. -/
def fetchChunk (s : State) (h : Nat) (src : Source) (x : Session) : Fetched :=
  if x.remaining < Config.chunkHdr then .done (.next (raiseFatal s h .truncated x))
  else .instr (.chunkHdr (srcRead src x.offset.toNat 8)) s

/-- Take the next opcode of a VIDEO chunk and encode it for its level (43_quadtree_video R183, R184). -/
def fetchOpcode (s : State) (h : Nat) (x : Session) (enc : BitVec 2 → Encoded) : Fetched :=
  match nextOpcode x with
  | .ok ox => .instr (enc ox.1) (s.setSlot h ox.2)
  | .raised e x1 => .done (.next (raiseFatal s h e x1))
  | .stuck f => .done (.fault f)

/-- Inside a VIDEO chunk: the opcode of the node or child; when every node is done, the frame is complete and the chunk
advances (43_quadtree_video R183, R196). -/
def fetchVideo (s : State) (h : Nat) (pos : VideoPos) (x : Session) : Fetched :=
  match pos with
  | .node =>
    if x.leaf < x.atN then fetchOpcode s h x .qop8 else .done (endChunk s h (.ok (frameComplete x)))
  | .child _ => fetchOpcode s h x .qop4

/-- Inside an audio chunk: the next payload byte; when every byte is stepped, the push and the advance (45_audio R261,
R262, R266). -/
def fetchAudio (s : State) (h : Nat) (stereo : Bool) (x : Session) : Fetched :=
  if x.audioPos < deltaCount stereo x then
    match x.payload[x.audioPos]? with
    | some d => .instr (.delta d) s
    | none => .done (.fault .noEntry)
  else .done (endChunk s h (.ok (pushAudio s.cfg x)))

/-- What slot `h` finds, with the source of its session. A session whose source changed is refused (00_scope R9 (c),
93_implementation_defined U6); a slot number that is no slot faults. -/
def withSlot (s : State) (h : Nat) (k : Source → Session → Fetched) : Fetched :=
  match s.slots[h]? with
  | some x =>
    match sourceOf s x with
    | some src => k src x
    | none => .done (.refused .sourceChanged)
  | none => .done (.fault .noSuchSlot)

/-- What the place where the machine stands holds, by phase. -/
def fetchPlace (s : State) : Fetched :=
  match s.phase with
  | .idle => fetchCommand s
  | .header h _ => withSlot s h (fetchHeader s h)
  | .loop h => withSlot s h fun _ x => .done (.next (loopHead s h x))
  | .fetch h => withSlot s h (fetchChunk s h)
  | .video h pos => withSlot s h fun _ => fetchVideo s h pos
  | .audio h stereo => withSlot s h fun _ => fetchAudio s h stereo

/-- The fetch. A command on the port while another executes is refused, and not queued (20_memory R73, 70_reset R330). -/
def fetch (s : State) : Fetched :=
  if s.phase ≠ .idle ∧ s.port ≠ none then .done (.refused .commandWhileBusy) else fetchPlace s

/-- What an encoded object does that the decoder rejects: an unknown tag raises BadOpcode after the fetch of its chunk
(40_chunk_reader R131), a reserved command code is refused (30_encoding R108 (f)). -/
def illegal (e : Encoded) (err : DecodeError) (s : State) : Host.Outcome State Fault Refusal :=
  match err with
  | .reservedCommand code => .refused (.reservedCommand code)
  | .notEightBytes => .refused .outOfPlace
  | .unknownTag _ =>
    match e with
    | .chunkHdr bytes =>
      match chunkFields bytes with
      | some (tag, hd) => unknownChunk tag hd s
      | none => .refused .outOfPlace
    | _ => .refused .outOfPlace

/-! ## Placing an instruction (what `State.withFetchWord` stands for) -/

/-- The source 0 of a placed instruction: a file header's 16 bytes and room for a payload of `len` bytes, the first bytes
those of `bytes`. -/
def placedSource (len : Nat) (bytes : List Byte) : Source := ⟨0, Config.fileHdr + len, bytes⟩

/-- A session in use on that source, standing at the chunk header at OFFSET 8 with one frame due. -/
def placedSession (len : Nat) (bytes : List Byte) (x : Session) : Session :=
  { x with
    inUse := true
    status := .play
    srcId := 0
    srcLen := BitVec.ofNat 32 (Config.fileHdr + len)
    srcBytes := (placedSource len bytes).content
    offset := 8
    decoded := 0
    target := 1 }

/-- A session inside the VIDEO chunk of an 8 x 8 frame, at its one node, with `code` as the one opcode left in the
cache and four operand bytes of 0 in the payload. -/
def placedVideo (p : Params) (code : BitVec 2) (x : Session) : Session :=
  { placedSession 4 [] x with
    w := 8
    h := 8
    addrTable := genTable p 8 8
    atN := 1
    atValid := true
    mdx := 0
    mdy := 0
    mcomp := motionTable 0 0
    cLen := 4
    payload := [0, 0, 0, 0]
    pptr := 0
    opw := code ++ (0 : BitVec 14)
    opn := 1
    leaf := 0 }

/-- Slot 0 replaced by `f` of it. -/
def placeSlot (s : State) (f : Session → Session) : List Session :=
  match s.slots with
  | [] => []
  | x :: t => f x :: t

/-- The byte length a chunk header declares. -/
def declaredLen (bytes : List Byte) : Nat :=
  match chunkFields bytes with
  | some (_, hd) => hd.len.toNat
  | none => 0

/-- Store an encoded object where the next fetch finds it, with all that this takes: a command on the port of an idle
machine; otherwise no command on the port, a source for slot 0, and in it a header; an opcode in the cache of a VIDEO chunk; a byte
in an audio payload. -/
def placeEncoded (s : State) : Encoded → State
  | .hostCmd c => { s with phase := .idle, port := some c }
  | .fileHdr bytes =>
    { s with
      phase := .header 0 false
      port := none
      sources := [placedSource 0 bytes]
      slots := placeSlot s (placedSession 0 bytes) }
  | .chunkHdr bytes =>
    { s with
      phase := .fetch 0
      port := none
      sources := [placedSource (declaredLen bytes) (List.replicate 8 0 ++ bytes)]
      slots := placeSlot s (placedSession (declaredLen bytes) (List.replicate 8 0 ++ bytes)) }
  | .qop8 code =>
    { s with
      phase := .video 0 .node
      port := none
      sources := [placedSource 4 []]
      slots := placeSlot s (placedVideo s.cfg code) }
  | .qop4 code =>
    { s with
      phase := .video 0 (.child 0)
      port := none
      sources := [placedSource 4 []]
      slots := placeSlot s (placedVideo s.cfg code) }
  | .delta d =>
    { s with
      phase := .audio 0 false
      port := none
      sources := [placedSource 1 []]
      slots := placeSlot s fun x =>
        { placedSession 1 [] x with cLen := 1, payload := [d], accL := 0, audioBuf := [], audioPos := 0 } }

end Sys2Proof.Machine
end

