-- ==== Sys2Proof/Machine/Step.lean ====
section
/-! DEFINITION. One step: fetch, decode, execute. -/

namespace Sys2Proof.Machine

/-- One step: what the fetch finds is decoded and executed, or it is a step that decodes nothing. -/
def step (s : State) : Host.Outcome State Fault Refusal :=
  match fetch s with
  | .done o => o
  | .instr e s1 =>
    match decode s1.cfg e with
    | .ok i => exec i s1
    | .error err => illegal e err s1

/-- `s` with the instruction of an opcode-table word stored where `step` fetches its next instruction
(`placeEncoded`). -/
def State.withFetchWord (s : State) (nbits w : Nat) : State :=
  match tableEncoded nbits w with
  | some e => placeEncoded s e
  | none => s

end Sys2Proof.Machine
end

