-- ==== Sys2Proof/Safety.lean ====
section
/-! DEFINITION. What counts as a legal state and as a safe step, in the terms the statements use. -/

namespace Sys2Proof.Machine

/-- The bytes of a bank of the frame buffer: `SURF_BYTES = MAX_W * MAX_H * BPP` (10_state R39). -/
def surfBytes (p : Params) (x : Session) : Nat := p.maxW * p.maxH * x.bpp.bytes

/-- A bank is in canonical form, and no byte at or beyond `n` has been written. -/
def Surface.within (n : Nat) (f : Surface) : Prop := Mem.wf f.cells ∧ ∀ c ∈ f.cells, c.1 < n

/-- An AudioPush as 45_audio R266, R267 describe it: at least one frame, signed 16-bit samples, two channels, the
instance's rate. -/
def AudioPush.legal (p : Params) (e : AudioPush) : Prop :=
  e.samples ≠ [] ∧ (∀ v ∈ e.samples, -32768 ≤ v ∧ v ≤ 32767) ∧ e.rate = p.audioRate ∧ e.channels = 2

/-- A session in use is legal. -/
structure Session.Live (p : Params) (s : State) (x : Session) : Prop where
  /-- MODE is 0 in every session (10_state R33, 42_codebook R168). -/
  mode : x.mode = 0
  /-- BPP is CFG_BPP (42_codebook R172). -/
  depth : x.bpp = p.cfgBpp
  /-- OFFSET is at most SRC_LEN (10_state R33). -/
  offset : x.offset.toNat ≤ x.srcLen.toNat
  /-- W and H are at most MAX_W and MAX_H (10_state R33). -/
  width : x.w.toNat ≤ p.maxW
  height : x.h.toNat ≤ p.maxH
  /-- N2 and N4 are at most 256, and the entries below them have a value (10_state R33, R35). -/
  count2 : x.n2.toNat ≤ 256
  count4 : x.n4.toNat ≤ 256
  tiles : x.status ≠ .endOfStream →
    x.n2.toNat ≤ x.cb2.length ∧ x.n4.toNat ≤ x.cb4.length ∧ x.n4.toNat ≤ x.cb8.length
  /-- A valid AT is the table of the present size (10_state R32). -/
  table : x.atValid = true →
    x.addrTable = genTable p x.w.toNat x.h.toNat ∧ x.addrTable.length = 5 * x.atN
  /-- The source is the one START opened, with its length and its bytes (20_memory R74). -/
  source : (sourceOf s x).isSome = true
  /-- A presentable frame is in the bank that is not written next, and never in EndOfStream (43_quadtree_video R197,
  60_exceptions R290, 44_scheduler R225); it fits a surface. -/
  frame : x.hasFrame = true →
    x.disp = x.wr.other ∧ x.status ≠ .endOfStream ∧ x.frW.toNat ≤ p.maxW ∧ x.frH.toNat ≤ p.maxH
  /-- ERR is set in EndOfStream only (60_exceptions R290, R292). -/
  error : x.err ≠ .none → x.status = .endOfStream
  /-- Nothing is written outside the surfaces (20_memory R70). -/
  bank0 : x.fb0.within (surfBytes p x)
  bank1 : x.fb1.within (surfBytes p x)
  /-- Every event pushed is as R266 says. -/
  audio : ∀ e ∈ x.audioOut, e.legal p

/-- A slot that is not in use: EndOfStream without a frame (10_state R44, 44_scheduler R228), its banks in canonical
form. -/
structure Session.Free (x : Session) : Prop where
  status : x.status = .endOfStream
  noFrame : x.hasFrame = false
  bank0 : Mem.wf x.fb0.cells
  bank1 : Mem.wf x.fb1.cells

/-- A slot is legal. -/
def Session.Legal (p : Params) (s : State) (x : Session) : Prop :=
  (x.inUse = true → x.Live p s) ∧ (x.inUse = false → x.Free)

/-- A chunk of the session is in progress: its header is at OFFSET, its payload is PAYLOAD, it lies inside the source,
and the catch-up loop wants a frame (10_state R26, 40_chunk_reader R130, 44_scheduler R224). -/
structure Session.InChunk (x : Session) : Prop where
  inUse : x.inUse = true
  status : x.status = .play
  due : x.decoded.toNat < x.target.toNat
  len : x.cLen.toNat ≤ Config.maxChunk
  payload : x.payload.length = x.cLen.toNat
  fits : x.offset.toNat + Config.chunkHdr + x.cLen.toNat ≤ x.srcLen.toNat

/-- The work registers of a VIDEO chunk in progress (10_state R23, R27, R36). -/
structure Session.InVideo (pos : VideoPos) (x : Session) : Prop where
  chunk : x.InChunk
  valid : x.atValid = true
  motion : x.mcomp = motionTable x.mdx x.mdy
  pptr : x.pptr.toNat ≤ x.cLen.toNat
  opn : x.opn.toNat ≤ 8
  leaf : x.leaf ≤ x.atN
  child : pos ≠ .node → x.leaf < x.atN

/-- The work registers of an audio chunk in progress. -/
structure Session.InAudio (stereo : Bool) (x : Session) : Prop where
  chunk : x.InChunk
  loud : x.silentFlag = false
  pos : x.audioPos ≤ deltaCount stereo x
  buf : x.audioBuf.length = (if stereo then x.audioPos else 2 * x.audioPos)
  samples : ∀ v ∈ x.audioBuf, -32768 ≤ v ∧ v ≤ 32767

/-- The slot a phase names is in the situation the phase says. -/
def Phase.Legal (s : State) : Phase → Prop
  | .idle => True
  | .header h _ => ∃ x, s.slots[h]? = some x ∧ x.inUse = true ∧ x.status = .play
  | .loop h => ∃ x, s.slots[h]? = some x ∧ x.inUse = true
  | .fetch h => ∃ x, s.slots[h]? = some x ∧ x.inUse = true ∧ x.status = .play ∧
      x.decoded.toNat < x.target.toNat ∧ x.offset.toNat < x.srcLen.toNat
  | .video h pos => ∃ x, s.slots[h]? = some x ∧ x.InVideo pos
  | .audio h stereo => ∃ x, s.slots[h]? = some x ∧ x.InAudio stereo

/-- The invariant of the machine. -/
structure State.Inv (s : State) : Prop where
  cfg : s.cfg.wf = true
  slots : s.slots.length = s.cfg.nSess
  leases : s.leases.length = s.slots.length
  legal : ∀ x ∈ s.slots, x.Legal s.cfg s
  phase : s.phase.Legal s

/-- The host's duties a step can see violated (00_scope R9 (c), 93_implementation_defined U6, U15): it presents a command
only when no other one runs, the command has no reserved code and, if it is a START, its source is not longer than 2^32-1
bytes. -/
def State.HostObeys (s : State) : Prop :=
  ∀ c, s.port = some c →
    s.phase = .idle ∧ c.code.toNat ≤ 4 ∧ (c.code = 0 → ∀ src ∈ s.sources, src.id = c.srcId → src.len < 2 ^ 32)

/-- The step has a successor: it neither faults nor is refused. -/
def State.Goes (s : State) : Prop := ∃ t, step s = .next t

/-- The slot that works in a phase, if any. -/
def Phase.slot : Phase → Option Nat
  | .idle => none
  | .header h _ => some h
  | .loop h => some h
  | .fetch h => some h
  | .video h _ => some h
  | .audio h _ => some h

/-! ## Terms of the statements, written from the rules -/

/-- A chunk with header `hd` stands at OFFSET of slot `h`, its fetch is due and no check of it fails (40_chunk_reader
R130); `src` is the source of the session. -/
structure ChunkReady (s : State) (h : Nat) (x : Session) (src : Source) (hd : ChunkHdr) : Prop where
  phase : s.phase = .fetch h
  slot : s.slots[h]? = some x
  len : hd.len.toNat ≤ 65536
  fits : x.offset.toNat + 8 + hd.len.toNat ≤ x.srcLen.toNat
  source : sourceOf s x = some src

/-- A session after a successful fetch: the chunk registers, the payload, the raw-packet countdown and the qualifier of
the requests (40_chunk_reader R130, R136). -/
def loaded (src : Source) (tag : BitVec 16) (hd : ChunkHdr) (x : Session) : Session :=
  { x with
    cType := tag
    cLen := hd.len
    cAux0 := hd.aux0
    cAux1 := hd.aux1
    payload := srcRead src (x.offset.toNat + 8) hd.len.toNat
    rawn := if x.rawn = 0 then 0 else x.rawn - 1
    inmem := decide (x.rawn ≠ 0) }

/-- `y` outside a chunk: the registers and tables that have no value outside the chunk that wrote them hold what they hold
in `u`, which a statement leaves open (10_state R25, R36, R38, 93_implementation_defined U2). -/
def Session.outside (u y : Session) : Session :=
  { y with
    cType := u.cType
    cLen := u.cLen
    cAux0 := u.cAux0
    cAux1 := u.cAux1
    opw := u.opw
    opn := u.opn
    pptr := u.pptr
    leaf := u.leaf
    mdx := u.mdx
    mdy := u.mdy
    accL := u.accL
    accR := u.accR
    audioBuf := u.audioBuf
    audioPos := u.audioPos
    mcomp := u.mcomp
    addrTable := if y.atValid then y.addrTable else u.addrTable
    payload := u.payload }

/-- Slot `h` holds `y` and its chunk, with a payload of `len` bytes, has advanced (40_chunk_reader R132); the catch-up loop
goes on. A statement leaves open `u` (`Session.outside`) and the model's counter `k`. -/
def chunkDone (s : State) (h : Nat) (len : BitVec 24) (u : Session) (k : Nat) (y : Session) : State :=
  { s with
    slots := s.slots.set h (Session.outside u { y with offset := BitVec.ofNat 32 (y.offset.toNat + 8 + len.toNat) })
    phase := .loop h
    freeCount := k }

/-- Trap entry of slot `h`, whose registers stand as in `y`, inside a TICK (60_exceptions R290). A statement leaves open
`u` (`Session.outside`) and the model's counter `k`; that everything else is kept is the model's choice (R291, log entry
11). -/
def trapped (s : State) (h : Nat) (code : ErrCode) (u : Session) (k : Nat) (y : Session) : State :=
  { s with
    slots := s.slots.set h
      (Session.outside u { y with status := .endOfStream, err := code, errOff := y.offset, hasFrame := false })
    phase := .idle
    result := some (.status .endOfStream)
    freeCount := k }

/-- `o` is the trap entry of slot `h` with `code`, whose registers stand as in `y` but for those that have no value outside
a chunk. -/
def Traps (s : State) (h : Nat) (code : ErrCode) (y : Session) (o : Host.Outcome State Fault Refusal) : Prop :=
  ∃ (u : Session) (k : Nat), o = .next (trapped s h code u k y)

/-- The source of `x` is gone, or its length or one of its bytes is not what START opened (00_scope R9 (c), 20_memory R74,
93_implementation_defined U6). -/
def SourceChanged (s : State) (x : Session) : Prop :=
  ∀ src, srcOpen s x.srcId = some src →
    src.len ≠ x.srcLen.toNat ∨ ∃ i < src.len, src.bytes.getD i 0 ≠ x.srcBytes.getD i 0

/-- Slot `h` holds `y` and the node at LEAF is done: LEAF steps on (43_quadtree_video R183). -/
def nodeDone (s : State) (h : Nat) (y : Session) : State :=
  { s with slots := s.slots.set h { y with leaf := y.leaf + 1 }, phase := .video h .node }

/-- Slot `h` holds `y` and child `j` is done: the next child, or after the fourth the next node (43_quadtree_video
R189). -/
def childDone (s : State) (h : Nat) (j : Fin 4) (y : Session) : State :=
  if j = 3 then nodeDone s h y else { s with slots := s.slots.set h y, phase := .video h (.child (j + 1)) }

/-- `f` is the writing bank of `x` after an n x n block of pixels at (col, row) was written, byte `i` of pixel (r, c) of
the block being `byte r c i`: those bytes, and every other byte as before (43_quadtree_video R195, R202). -/
structure Surface.Wrote (x : Session) (n col row : Nat) (byte : Nat → Nat → Nat → Byte) (f : Surface) : Prop where
  inside : ∀ r < n, ∀ c < n, ∀ i < x.bpp.bytes, f.read (pixelOff x (col + c) (row + r) + i) = byte r c i
  outside : ∀ a, (∀ r < n, ∀ c < n, ∀ i < x.bpp.bytes, a ≠ pixelOff x (col + c) (row + r) + i) →
    f.read a = (x.bank x.wr).read a

/-- `k` calls of next_opcode in a row, with the opcodes they return (43_quadtree_video R184). -/
def nextOpcodes : Nat → Session → Res (List (BitVec 2) × Session)
  | 0, x => .ok ([], x)
  | k + 1, x => (nextOpcode x).andThen fun a => (nextOpcodes k a.2).andThen fun b => .ok (a.1 :: b.1, b.2)

/-- The accumulator and the samples of a mono payload from the accumulator `acc` (45_audio R261, R263). -/
def monoRun (acc : BitVec 16) : List Byte → BitVec 16 × List Int
  | [] => (acc, [])
  | d :: t =>
    let a := acc + BitVec.ofInt 16 (sqr d)
    let r := monoRun a t
    (r.1, a.toInt :: a.toInt :: r.2)

/-- The accumulators and the samples of a stereo payload from the accumulators `l` and `r`; an odd last byte is ignored
(45_audio R262, R263). -/
def stereoRun (l r : BitVec 16) : List Byte → BitVec 16 × BitVec 16 × List Int
  | a :: b :: t =>
    let l1 := l + BitVec.ofInt 16 (sqr a)
    let r1 := r + BitVec.ofInt 16 (sqr b)
    let o := stereoRun l1 r1 t
    (o.1, o.2.1, l1.toInt :: r1.toInt :: o.2.2)
  | _ => (l, r, [])

/-- TARGET is that of the last `now` seen and DECODED has not passed it (44_scheduler R223, R224). -/
def Session.OnTime (x : Session) : Prop := x.target = targetOf x x.nowL ∧ x.decoded.toNat ≤ x.target.toNat

end Sys2Proof.Machine
end

