-- ==== Sys2Proof/Certificates/Slice0/Obligations.lean ====
section
/-! DEFINITION. The statements. They are written from the numbered rules; the terms they share are in Safety.lean. -/

open Sys2Proof Sys2Proof.Machine

/-! ## Encoding -/

/-- Decoding an encoded well-formed instruction gives it back, for every instruction and every operand value
(30_encoding R91, R92, R95, R100, R101, R105, R107). -/
def Obligations.DecodeEncodeRoundTrip : Prop :=
  ∀ (p : Params) (i : Instr), p.wf = true → i.wf p = true → decode p (encode p i) = .ok i

/-- A stream object that decodes is the encoding of what it decodes to: no bit of it is dropped, reserved and unused
ones included (30_encoding R91, R92, R95, R100, R101, R105). -/
def Obligations.EncodeDecodeRoundTrip : Prop :=
  ∀ (p : Params) (e : Encoded) (i : Instr), (∀ c, e ≠ .hostCmd c) → decode p e = .ok i → encode p i = e

/-- Words of each format written out from the examples and tables of 30_encoding and 40_chunk_reader decode to their
instructions. -/
def Obligations.WrittenWordsDecode : Prop :=
  decode Params.reference (.fileHdr [0x84, 0x10, 0xFF, 0xFF, 0xFF, 0xFF, 0x0A, 0x00]) =
      .ok (.filehdr 0x1084 0xFFFFFFFF 10) ∧
    decode Params.reference (.chunkHdr [0x02, 0x10, 0x1C, 0x00, 0x00, 0x00, 0x01, 0x04]) =
      .ok (.codebook ⟨28, 0, 1, 4⟩) ∧
    decode Params.reference (.chunkHdr [0x30, 0x10, 0x00, 0x00, 0x01, 0x5A, 0x03, 0x00]) =
      .ok (.packet ⟨65536, 0x5A, 3, 0⟩) ∧
    decode Params.reference (.qop8 0b10) = .ok .vq8 ∧
    decode Params.reference (.qop4 0b11) = .ok .quad2 ∧
    decode Params.reference (.delta 0x83) = .ok (.delta 0x83) ∧
    decode Params.reference (.hostCmd { portWord 4 with handle := 3 }) = .ok (.resume 3)

/-- A chunk whose tag is none of the seven is fetched whole and raises BadOpcode (40_chunk_reader R131, 60_exceptions
R284). What else the slot held and has a value outside a chunk is kept at the trap, which is the model's choice (log entry
11). -/
def Obligations.UnknownTagIsBadOpcode : Prop :=
  ∀ (s : State) (h : Nat) (x : Session) (src : Source) (tag : BitVec 16) (hd : ChunkHdr),
    ChunkReady s h x src hd → s.port = none → chunkFields (srcRead src x.offset.toNat 8) = some (tag, hd) →
    tag ∉ s.cfg.tags → Traps s h .badOpcode (loaded src tag hd x) (step s)

/-! ## A step runs the decoded instruction -/

/-- Where an encoded object stands at the place the machine is at, and decodes to `i`, a step is `exec i`: on the state
with the command taken from the port, or with the opcode taken from the cache; on the state itself for a header and an
audio byte. Of the 16 bytes a header parse reads, the first 8 are the file header. Inside a command no other one may be on
the port, and the source is the one START opened (`CommandsRefused`). -/
def Obligations.StepRunsTheDecodedInstruction : Prop :=
  (∀ (s : State) (c : PortWord) (i : Instr),
      s.phase = .idle → s.port = some c → decode s.cfg (.hostCmd c) = .ok i →
      step s = exec i { s with port := none }) ∧
    (∀ (s : State) (h : Nat) (restart : Bool) (x : Session) (src : Source) (i : Instr),
      s.phase = .header h restart → s.port = none → s.slots[h]? = some x → 16 ≤ x.srcLen.toNat →
      sourceOf s x = some src → decode s.cfg (.fileHdr ((srcRead src 0 16).take 8)) = .ok i → step s = exec i s) ∧
    (∀ (s : State) (h : Nat) (x : Session) (src : Source) (i : Instr),
      s.phase = .fetch h → s.port = none → s.slots[h]? = some x → x.offset.toNat + 8 ≤ x.srcLen.toNat →
      sourceOf s x = some src → decode s.cfg (.chunkHdr (srcRead src x.offset.toNat 8)) = .ok i → step s = exec i s) ∧
    (∀ (s : State) (h : Nat) (x y : Session) (src : Source) (code : BitVec 2) (i : Instr),
      s.phase = .video h .node → s.port = none → s.slots[h]? = some x → sourceOf s x = some src → x.leaf < x.atN →
      nextOpcode x = .ok (code, y) → decode s.cfg (.qop8 code) = .ok i → step s = exec i { s with slots := s.slots.set h y }) ∧
    (∀ (s : State) (h : Nat) (j : Fin 4) (x y : Session) (src : Source) (code : BitVec 2) (i : Instr),
      s.phase = .video h (.child j) → s.port = none → s.slots[h]? = some x → sourceOf s x = some src →
      nextOpcode x = .ok (code, y) → decode s.cfg (.qop4 code) = .ok i → step s = exec i { s with slots := s.slots.set h y }) ∧
    (∀ (s : State) (h : Nat) (stereo : Bool) (x : Session) (src : Source) (d : Byte) (i : Instr),
      s.phase = .audio h stereo → s.port = none → s.slots[h]? = some x → sourceOf s x = some src →
      x.audioPos < (if stereo then 2 * (x.cLen.toNat / 2) else x.cLen.toNat) → x.payload[x.audioPos]? = some d →
      decode s.cfg (.delta d) = .ok i → step s = exec i s)

/-! ## The header parse -/

/-- FILEHDR of START: with 16 bytes of source and the magic, FPS is loaded (0 means 30), OFFSET is 8, and START returns
the handle; nothing else changes but the qualifier of the request (40_chunk_reader R137). -/
def Obligations.HeaderParseLoads : Prop :=
  ∀ (s : State) (h : Nat) (x : Session) (unused : BitVec 32) (fps : BitVec 16),
    s.phase = .header h false → s.slots[h]? = some x → 16 ≤ x.srcLen.toNat →
    exec (.filehdr s.cfg.magic unused fps) s =
      .next
        { s with
          slots := s.slots.set h
            { x with offset := 8, fps := if fps = 0 then 30 else fps, inmem := decide (x.rawn ≠ 0) }
          phase := .idle
          result := some (.handle h) }

/-- The errors of the header parse of START, in order: Truncated below 16 bytes, then InvalidMagic; ERR_OFF is 0, START
returns the handle (40_chunk_reader R137, 60_exceptions R283, R289, R290). What else the slot held and has a value outside
a chunk is kept at the trap, which is the model's choice (log entry 11). -/
def Obligations.HeaderParseErrors : Prop :=
  ∀ (s : State) (h : Nat) (x : Session) (magic : BitVec 16) (unused : BitVec 32) (fps : BitVec 16),
    s.phase = .header h false → s.slots[h]? = some x →
    (∀ src, x.srcLen.toNat < 16 → s.port = none → sourceOf s x = some src →
      ∃ (u : Session) (k : Nat),
        step s = .next { trapped s h .truncated u k { x with offset := 0 } with result := some (.handle h) }) ∧
    (16 ≤ x.srcLen.toNat → magic ≠ s.cfg.magic →
      ∃ (u : Session) (k : Nat),
        exec (.filehdr magic unused fps) s =
          .next
            { trapped s h .invalidMagic u k { x with offset := 0, inmem := decide (x.rawn ≠ 0) } with
              result := some (.handle h) })

/-- A loop restart: the header is parsed again, the counters, START_TIME, FIRST, the codebook counts and RAWN are reset,
STATUS is Looped; everything else is kept (44_scheduler R226), but for the tiles, which have no value at or beyond the
counts (10_state R35): the three tile memories hold anything. -/
def Obligations.LoopRestart : Prop :=
  ∀ (s : State) (h : Nat) (x : Session) (unused : BitVec 32) (fps : BitVec 16),
    s.phase = .header h true → s.slots[h]? = some x → 16 ≤ x.srcLen.toNat →
    ∃ (cb2 cb4 cb8 : List Tile) (k : Nat),
      exec (.filehdr s.cfg.magic unused fps) s =
        .next
          { s with
            slots := s.slots.set h
              { x with
                offset := 8
                fps := if fps = 0 then 30 else fps
                inmem := decide (x.rawn ≠ 0)
                startTime := x.nowL
                decoded := 0
                target := 0
                first := true
                n2 := 0
                n4 := 0
                rawn := 0
                status := .looped
                cb2 := cb2
                cb4 := cb4
                cb8 := cb8 }
            phase := .loop h
            freeCount := k }

/-! ## The chunk fetch and the plain chunks -/

/-- The errors of the chunk fetch, in the order of 40_chunk_reader R130, whatever the tag: Truncated when fewer than 8
bytes remain, Oversize, Truncated when the payload is incomplete. OFFSET is unchanged. What else the slot held and has a
value outside a chunk is kept at the trap, which is the model's choice (log entry 11). -/
def Obligations.ChunkFetchErrors : Prop :=
  ∀ (s : State) (h : Nat) (x : Session) (src : Source), s.phase = .fetch h → s.port = none → s.slots[h]? = some x →
    sourceOf s x = some src →
    (x.srcLen.toNat < x.offset.toNat + 8 → Traps s h .truncated x (step s)) ∧
    (∀ (tag : BitVec 16) (hd : ChunkHdr),
      x.offset.toNat + 8 ≤ x.srcLen.toNat → chunkFields (srcRead src x.offset.toNat 8) = some (tag, hd) →
      (65536 < hd.len.toNat → Traps s h .oversize { x with inmem := decide (x.rawn ≠ 0) } (step s)) ∧
      (hd.len.toNat ≤ 65536 → x.srcLen.toNat < x.offset.toNat + 8 + hd.len.toNat →
        Traps s h .truncated { x with inmem := decide (x.rawn ≠ 0) } (step s)))

/-- HANG does the fetch and the advance and nothing more (40_chunk_reader R134): of the registers that keep a value after a
chunk only OFFSET, RAWN and the qualifier of the requests change. -/
def Obligations.HangOnlyAdvances : Prop :=
  ∀ (s : State) (h : Nat) (x : Session) (src : Source) (hd : ChunkHdr), ChunkReady s h x src hd →
    ∃ (u : Session) (k : Nat),
      exec (.hang hd) s = .next (chunkDone s h hd.len u k (loaded src s.cfg.tagHang hd x))

/-- PACKET sets RAWN to its aux field, after the countdown of its own fetch (40_chunk_reader R135, R136). -/
def Obligations.PacketSetsRawn : Prop :=
  ∀ (s : State) (h : Nat) (x : Session) (src : Source) (hd : ChunkHdr), ChunkReady s h x src hd →
    ∃ (u : Session) (k : Nat),
      exec (.packet hd) s =
        .next (chunkDone s h hd.len u k { loaded src s.cfg.tagPacket hd x with rawn := hd.aux1 ++ hd.aux0 })

/-- INFO takes the size of its payload, both fields little-endian: on a change AT goes stale and FIRST is set; TARGET is
recomputed from NOW_L; nothing else changes (40_chunk_reader R133). -/
def Obligations.InfoDeclaresSize : Prop :=
  ∀ (s : State) (h : Nat) (x y : Session) (src : Source) (hd : ChunkHdr) (b0 b1 b2 b3 : Byte) (rest : List Byte)
    (w hh : BitVec 16),
    ChunkReady s h x src hd → y = loaded src s.cfg.tagInfo hd x → y.payload = b0 :: b1 :: b2 :: b3 :: rest →
    w = b1 ++ b0 → hh = b3 ++ b2 → w.toNat ≤ s.cfg.maxW → hh.toNat ≤ s.cfg.maxH → s.cfg.cfgHalf = false →
    ¬ (hh.toNat ≠ 0 ∧ w.toNat = 4 * hh.toNat) →
    ∃ (u : Session) (k : Nat),
      exec (.info hd) s =
        .next (chunkDone s h hd.len u k
          { y with
            w := w
            h := hh
            atValid := if w = x.w ∧ hh = x.h then x.atValid else false
            first := if w = x.w ∧ hh = x.h then x.first else true
            target := BitVec.ofNat 64 ((x.nowL.toNat - x.startTime.toNat) * x.fps.toNat / 1000) })

/-- The errors of INFO, in order: Truncated, IndexOutOfRange, ModeUnsupported; W and H are unchanged (40_chunk_reader
R133, 60_exceptions R286, R289). What else the slot held and has a value outside a chunk is kept at the trap, which is the
model's choice (log entry 11). -/
def Obligations.InfoErrors : Prop :=
  ∀ (s : State) (h : Nat) (x y : Session) (src : Source) (hd : ChunkHdr),
    ChunkReady s h x src hd → y = loaded src s.cfg.tagInfo hd x →
    (hd.len.toNat < 4 → Traps s h .truncated y (exec (.info hd) s)) ∧
    (∀ (b0 b1 b2 b3 : Byte) (rest : List Byte) (w hh : BitVec 16),
      y.payload = b0 :: b1 :: b2 :: b3 :: rest → w = b1 ++ b0 → hh = b3 ++ b2 →
      (s.cfg.maxW < w.toNat ∨ s.cfg.maxH < hh.toNat →
        Traps s h .indexOutOfRange y (exec (.info hd) s)) ∧
      (w.toNat ≤ s.cfg.maxW → hh.toNat ≤ s.cfg.maxH →
        s.cfg.cfgHalf = true ∨ (hh.toNat ≠ 0 ∧ w.toNat = 4 * hh.toNat) →
        Traps s h .modeUnsupported y (exec (.info hd) s)))

/-! ## CODEBOOK -/

/-- CODEBOOK rebuilds the three dictionaries whole from its counts and payload: every pixel of every tile below the
counts, the counts, and nothing else of the session (42_codebook R161 to R165; 30_encoding R97, R98). -/
def Obligations.CodebookBuilds : Prop :=
  ∀ (s : State) (h : Nat) (x y : Session) (src : Source) (hd : ChunkHdr) (n2 n4 : Nat) (pay : Nat → Byte),
    ChunkReady s h x src hd → y = loaded src s.cfg.tagCodebook hd x → (∀ k, pay k = y.payload.getD k 0) →
    n2 = (if hd.aux1 = 0 then 256 else hd.aux1.toNat) →
    n4 = (if hd.aux0 = 0 ∧ hd.aux1 = 0 then 256 else hd.aux0.toNat) → 6 * n2 + 4 * n4 ≤ hd.len.toNat →
    (∀ k < 4 * n4, (pay (6 * n2 + k)).toNat < n2) →
    ∃ (cb2 cb4 cb8 : List Tile) (u : Session) (k : Nat),
      exec (.codebook hd) s =
          .next (chunkDone s h hd.len u k
            { y with cb2 := cb2, cb4 := cb4, cb8 := cb8, n2 := BitVec.ofNat 9 n2, n4 := BitVec.ofNat 9 n4 }) ∧
        cb2.length = n2 ∧ cb4.length = n4 ∧ cb8.length = n4 ∧
        (∀ k < n2, ∀ r < 2, ∀ c < 2,
          (cb2.getD k []).px r c =
            conv s.cfg.conv x.bpp (pay (6 * k + 2 * r + c)) (pay (6 * k + 4)) (pay (6 * k + 5))) ∧
        (∀ k < n4, ∀ r < 4, ∀ c < 4,
          (cb4.getD k []).px r c =
            (cb2.getD (pay (6 * n2 + 4 * k + 2 * (r / 2) + c / 2)).toNat []).px (r % 2) (c % 2)) ∧
        (∀ k < n4, ∀ r < 8, ∀ c < 8, (cb8.getD k []).px r c = (cb4.getD k []).px (r / 2) (c / 2))

/-- The errors of CODEBOOK: Truncated before any tile is written; IndexOutOfRange at the first record `k` with a seed at
or above n2, after CB2 and the tiles before `k`, with N2 and N4 as before (42_codebook R167, 60_exceptions R291). Of the
three tile lists only the LENGTHS are claimed. That CB2 keeps no old tile from n2 up, and CB4 and CB8
none from record `k` on, is the model's choice (log entry 10, DESIGN CHOICE; R291 lets a model keep or discard that state),
and so is that the trap keeps what else the slot held and has a value outside a chunk (log entry 11). -/
def Obligations.CodebookErrors : Prop :=
  ∀ (s : State) (h : Nat) (x y : Session) (src : Source) (hd : ChunkHdr) (n2 n4 : Nat) (pay : Nat → Byte),
    ChunkReady s h x src hd → y = loaded src s.cfg.tagCodebook hd x → (∀ k, pay k = y.payload.getD k 0) →
    n2 = (if hd.aux1 = 0 then 256 else hd.aux1.toNat) →
    n4 = (if hd.aux0 = 0 ∧ hd.aux1 = 0 then 256 else hd.aux0.toNat) →
    (hd.len.toNat < 6 * n2 + 4 * n4 → Traps s h .truncated y (exec (.codebook hd) s)) ∧
    (6 * n2 + 4 * n4 ≤ hd.len.toNat → ∀ k < n4, (∀ j < 4 * k, (pay (6 * n2 + j)).toNat < n2) →
      (∃ m < 4, n2 ≤ (pay (6 * n2 + 4 * k + m)).toNat) →
      ∃ cb2 cb4 cb8 : List Tile,
        Traps s h .indexOutOfRange { y with cb2 := cb2, cb4 := cb4, cb8 := cb8 } (exec (.codebook hd) s) ∧
          cb2.length = n2 ∧ cb4.length = k ∧ cb8.length = k)

/-- The dictionaries after CODEBOOK are a function of the aux bytes, the payload bytes the counts use, BPP and the
conversions: of nothing that the two sessions held before (42_codebook R166). The hypotheses admit a seed at or above n2 as
well: then too the tiles agree, which is the model's choice, not R166's: it drops the old tiles of CB2 from n2 up and
those of CB4 and CB8 from the bad record on (log entry 10, DESIGN CHOICE; 60_exceptions R291 lets a model keep or discard
them). -/
def Obligations.CodebookDependsOnlyOnItsInputs : Prop :=
  ∀ (s s' t t' : State) (h h' : Nat) (x x' y y' : Session) (src src' : Source) (hd hd' : ChunkHdr) (n2 n4 : Nat),
    ChunkReady s h x src hd → ChunkReady s' h' x' src' hd' → s.cfg.conv = s'.cfg.conv → x.bpp = x'.bpp →
    hd.aux0 = hd'.aux0 → hd.aux1 = hd'.aux1 → n2 = (if hd.aux1 = 0 then 256 else hd.aux1.toNat) →
    n4 = (if hd.aux0 = 0 ∧ hd.aux1 = 0 then 256 else hd.aux0.toNat) →
    6 * n2 + 4 * n4 ≤ hd.len.toNat → 6 * n2 + 4 * n4 ≤ hd'.len.toNat →
    (∀ k < 6 * n2 + 4 * n4,
      (srcRead src (x.offset.toNat + 8) hd.len.toNat)[k]? = (srcRead src' (x'.offset.toNat + 8) hd'.len.toNat)[k]?) →
    exec (.codebook hd) s = .next t → exec (.codebook hd') s' = .next t' →
    t.slots[h]? = some y → t'.slots[h']? = some y' →
    y.cb2 = y'.cb2 ∧ y.cb4 = y'.cb4 ∧ y.cb8 = y'.cb8 ∧
      (y.status ≠ .endOfStream → y.n2 = y'.n2 ∧ y.n4 = y'.n4)

/-! ## VIDEO -/

/-- VIDEO's prologue: AT is generated when it is stale and otherwise kept, MDX, MDY and MCOMP are built, the opcode cache
is emptied, PPTR rewound, and the first node is next; no bank, no flag and no other register changes (43_quadtree_video
R181 to R183). -/
def Obligations.VideoPrologue : Prop :=
  ∀ (s : State) (h : Nat) (x : Session) (src : Source) (hd : ChunkHdr), ChunkReady s h x src hd →
    exec (.video hd) s =
      .next
        { s with
          slots := s.slots.set h
            { loaded src s.cfg.tagVideo hd x with
              addrTable := if x.atValid then x.addrTable else genTable s.cfg x.w.toNat x.h.toNat
              atN := if x.atValid then x.atN else (genTable s.cfg x.w.toNat x.h.toNat).length / 5
              atValid := true
              mdx := motionBase hd.aux1
              mdy := motionBase hd.aux0
              mcomp := motionTable (motionBase hd.aux1) (motionBase hd.aux0)
              opn := 0
              pptr := 0
              leaf := 0 }
          phase := .video h .node }

/-- The motion table: 256 entries, entry b the displacement (8 - b[7:4] - MDX, 8 - b[3:0] - MDY) with the bases the aux
bytes clamped to -8..7; each component is in -14..16 (43_quadtree_video R182). -/
def Obligations.MotionTable : Prop :=
  ∀ (aux0 aux1 : Byte),
    (motionTable (motionBase aux1) (motionBase aux0)).length = 256 ∧
      ∀ b : Byte, ∃ mx my : Int,
        (motionTable (motionBase aux1) (motionBase aux0))[b.toNat]? = some (mx, my) ∧
          mx = 8 - ((b.extractLsb' 4 4).toNat : Int) - min (max aux1.toInt (-8)) 7 ∧
          my = 8 - ((b.extractLsb' 0 4).toNat : Int) - min (max aux0.toInt (-8)) 7 ∧
          -14 ≤ mx ∧ mx ≤ 16 ∧ -14 ≤ my ∧ my ≤ 16

/-- The address table: floor(W/8) * floor(H/8) nodes of five entries each, every node an aligned 8 x 8 block inside the
W x H area followed by its four children, the nodes in the order of their macroblock (row by row, left to right) and inside
it depth first, the quarters top-left, top-right, bottom-left, bottom-right (43_quadtree_video R180). `n` is how often a
macroblock is quartered: R180's macroblock of 16 x 16 pixels is `n = 1`. That a macroblock of another edge 8 * 2^n is
walked so too is the model's choice (log entry 27, DESIGN CHOICE). -/
def Obligations.AddressTable : Prop :=
  ∀ (p : Params) (n w h : Nat), p.mb = 8 * 2 ^ n →
    (genTable p w h).length = 5 * ((w / 8) * (h / 8)) ∧
      (∀ k < (w / 8) * (h / 8), ∃ x y : Nat,
        x % 8 = 0 ∧ y % 8 = 0 ∧ x + 8 ≤ w ∧ y + 8 ≤ h ∧
          (genTable p w h)[5 * k]? = some (x, y) ∧ (genTable p w h)[5 * k + 1]? = some (x, y) ∧
          (genTable p w h)[5 * k + 2]? = some (x + 4, y) ∧ (genTable p w h)[5 * k + 3]? = some (x, y + 4) ∧
          (genTable p w h)[5 * k + 4]? = some (x + 4, y + 4)) ∧
      (∀ (k l x y x' y' : Nat), k < l → (genTable p w h)[5 * k]? = some (x, y) →
        (genTable p w h)[5 * l]? = some (x', y') →
        y / p.mb < y' / p.mb ∨
          (y / p.mb = y' / p.mb ∧
            (x / p.mb < x' / p.mb ∨
              (x / p.mb = x' / p.mb ∧ ∃ m < n,
                x / (8 * 2 ^ (m + 1)) = x' / (8 * 2 ^ (m + 1)) ∧ y / (8 * 2 ^ (m + 1)) = y' / (8 * 2 ^ (m + 1)) ∧
                  2 * (y / (8 * 2 ^ m) % 2) + x / (8 * 2 ^ m) % 2 <
                    2 * (y' / (8 * 2 ^ m) % 2) + x' / (8 * 2 ^ m) % 2))))

/-- Eight opcodes of a word: the word is fetched once, little-endian, when the cache is empty, and its opcodes come from
the most significant pair down; PPTR advances by 2 only and the cache is empty again (30_encoding R99,
43_quadtree_video R184). -/
def Obligations.EightOpcodesOfAWord : Prop :=
  ∀ (x : Session) (b0 b1 : Byte), x.opn = 0 → x.cLen.toNat ≤ 65536 → x.pptr.toNat + 2 ≤ x.cLen.toNat →
    x.payload[x.pptr.toNat]? = some b0 → x.payload[x.pptr.toNat + 1]? = some b1 →
    nextOpcodes 8 x =
      .ok
        ([(b1 ++ b0).extractLsb' 14 2, (b1 ++ b0).extractLsb' 12 2, (b1 ++ b0).extractLsb' 10 2,
            (b1 ++ b0).extractLsb' 8 2, (b1 ++ b0).extractLsb' 6 2, (b1 ++ b0).extractLsb' 4 2,
            (b1 ++ b0).extractLsb' 2 2, (b1 ++ b0).extractLsb' 0 2],
          { x with opw := 0, opn := 0, pptr := BitVec.ofNat 17 (x.pptr.toNat + 2) })

/-- An opcode word that the payload does not hold is Truncated, at a node and at a child (43_quadtree_video R184,
60_exceptions R281 (f)). What else the slot held and has a value outside a chunk is kept at the trap, which is the model's
choice (log entry 11). -/
def Obligations.OpcodeWordMissingIsTruncated : Prop :=
  ∀ (s : State) (h : Nat) (pos : VideoPos) (x : Session) (src : Source), s.phase = .video h pos → s.port = none →
    s.slots[h]? = some x → sourceOf s x = some src → (pos = .node → x.leaf < x.atN) → x.opn = 0 →
    x.cLen.toNat < x.pptr.toNat + 2 → Traps s h .truncated x (step s)

/-! ## The video opcodes -/

/-- SKIP8 and SKIP4 read and write nothing: LEAF, or the child, steps on (43_quadtree_video R186, R190). -/
def Obligations.SkipTouchesNothing : Prop :=
  (∀ (s : State) (h : Nat) (x : Session), s.phase = .video h .node → s.slots[h]? = some x →
      exec .skip8 s = .next (nodeDone s h x)) ∧
    (∀ (s : State) (h : Nat) (j : Fin 4) (x : Session), s.phase = .video h (.child j) → s.slots[h]? = some x →
      exec .skip4 s = .next (childDone s h j x))

/-- SUB8 consumes nothing and goes to child 0 of the same node (43_quadtree_video R189). -/
def Obligations.SubdivideGoesToTheChildren : Prop :=
  ∀ (s : State) (h : Nat) (x : Session), s.phase = .video h .node → s.slots[h]? = some x →
    exec .sub8 s = .next { s with slots := s.slots.set h x, phase := .video h (.child 0) }

/-- MOT8: the motion byte is read, and the 8 x 8 block of the reference bank at the displaced position is copied to the
node; PPTR and LEAF step on, every other byte of both banks and everything else stays (43_quadtree_video R187, R194). -/
def Obligations.Mot8CopiesTheBlock : Prop :=
  ∀ (s : State) (h : Nat) (x : Session) (b : Byte) (col row sx sy : Nat) (mx my : Int),
    s.phase = .video h .node → s.slots[h]? = some x → x.pptr.toNat < x.cLen.toNat →
    x.payload[x.pptr.toNat]? = some b → x.addrTable[5 * x.leaf]? = some (col, row) →
    x.mcomp[b.toNat]? = some (mx, my) → (sx : Int) = col + mx → (sy : Int) = row + my →
    sx + 8 ≤ x.w.toNat → sy + 8 ≤ x.h.toNat → col + 8 ≤ x.w.toNat → row + 8 ≤ x.h.toNat →
    ∃ f : Surface,
      exec .mot8 s =
          .next (nodeDone s h { x.setBank x.wr f with pptr := BitVec.ofNat 17 (x.pptr.toNat + 1) }) ∧
        f.Wrote x 8 col row fun r c i => (x.bank x.wr.other).read (pixelOff x (sx + c) (sy + r) + i)

/-- MOT4: as MOT8, with the 4 x 4 child (43_quadtree_video R191, R194). -/
def Obligations.Mot4CopiesTheBlock : Prop :=
  ∀ (s : State) (h : Nat) (j : Fin 4) (x : Session) (b : Byte) (col row sx sy : Nat) (mx my : Int),
    s.phase = .video h (.child j) → s.slots[h]? = some x → x.pptr.toNat < x.cLen.toNat →
    x.payload[x.pptr.toNat]? = some b → x.addrTable[5 * x.leaf + 1 + j.val]? = some (col, row) →
    x.mcomp[b.toNat]? = some (mx, my) → (sx : Int) = col + mx → (sy : Int) = row + my →
    sx + 4 ≤ x.w.toNat → sy + 4 ≤ x.h.toNat → col + 4 ≤ x.w.toNat → row + 4 ≤ x.h.toNat →
    ∃ f : Surface,
      exec .mot4 s =
          .next (childDone s h j { x.setBank x.wr f with pptr := BitVec.ofNat 17 (x.pptr.toNat + 1) }) ∧
        f.Wrote x 4 col row fun r c i => (x.bank x.wr.other).read (pixelOff x (sx + c) (sy + r) + i)

/-- The errors of MOT8 and MOT4: Truncated when no motion byte is left, then IndexOutOfRange when the source block is
not inside the W x H area, in pixel coordinates; no pixel is written (43_quadtree_video R185, R194). What else the slot
held and has a value outside a chunk is kept at the trap, which is the model's choice (log entry 11). -/
def Obligations.MotionErrors : Prop :=
  (∀ (s : State) (h : Nat) (x : Session), s.phase = .video h .node → s.slots[h]? = some x →
      (x.cLen.toNat ≤ x.pptr.toNat → Traps s h .truncated x (exec .mot8 s)) ∧
      (∀ (b : Byte) (col row : Nat) (mx my : Int), x.pptr.toNat < x.cLen.toNat →
        x.payload[x.pptr.toNat]? = some b → x.addrTable[5 * x.leaf]? = some (col, row) →
        x.mcomp[b.toNat]? = some (mx, my) →
        (col + mx < 0 ∨ (x.w.toNat : Int) < col + mx + 8 ∨ row + my < 0 ∨ (x.h.toNat : Int) < row + my + 8) →
        Traps s h .indexOutOfRange x (exec .mot8 s))) ∧
    (∀ (s : State) (h : Nat) (j : Fin 4) (x : Session), s.phase = .video h (.child j) → s.slots[h]? = some x →
      (x.cLen.toNat ≤ x.pptr.toNat → Traps s h .truncated x (exec .mot4 s)) ∧
      (∀ (b : Byte) (col row : Nat) (mx my : Int), x.pptr.toNat < x.cLen.toNat →
        x.payload[x.pptr.toNat]? = some b → x.addrTable[5 * x.leaf + 1 + j.val]? = some (col, row) →
        x.mcomp[b.toNat]? = some (mx, my) →
        (col + mx < 0 ∨ (x.w.toNat : Int) < col + mx + 4 ∨ row + my < 0 ∨ (x.h.toNat : Int) < row + my + 4) →
        Traps s h .indexOutOfRange x (exec .mot4 s)))

/-- VQ8: tile k of CB8 is written at the node, each pixel as its low BPP bytes little-endian; PPTR and LEAF step on,
every other byte of both banks and everything else stays (43_quadtree_video R188, R195). -/
def Obligations.Vq8WritesTheTile : Prop :=
  ∀ (s : State) (h : Nat) (x : Session) (k : Byte) (tile : Tile) (col row : Nat),
    s.phase = .video h .node → s.slots[h]? = some x → x.pptr.toNat < x.cLen.toNat →
    x.payload[x.pptr.toNat]? = some k → k.toNat < x.n4.toNat → x.cb8[k.toNat]? = some tile →
    x.addrTable[5 * x.leaf]? = some (col, row) → col + 8 ≤ x.w.toNat → row + 8 ≤ x.h.toNat →
    ∃ f : Surface,
      exec .vq8 s =
          .next (nodeDone s h { x.setBank x.wr f with pptr := BitVec.ofNat 17 (x.pptr.toNat + 1) }) ∧
        f.Wrote x 8 col row fun r c i => (tile.px r c).extractLsb' (8 * i) 8

/-- VQ4: as VQ8, with tile k of CB4 at the 4 x 4 child (43_quadtree_video R192, R195). -/
def Obligations.Vq4WritesTheTile : Prop :=
  ∀ (s : State) (h : Nat) (j : Fin 4) (x : Session) (k : Byte) (tile : Tile) (col row : Nat),
    s.phase = .video h (.child j) → s.slots[h]? = some x → x.pptr.toNat < x.cLen.toNat →
    x.payload[x.pptr.toNat]? = some k → k.toNat < x.n4.toNat → x.cb4[k.toNat]? = some tile →
    x.addrTable[5 * x.leaf + 1 + j.val]? = some (col, row) → col + 4 ≤ x.w.toNat → row + 4 ≤ x.h.toNat →
    ∃ f : Surface,
      exec .vq4 s =
          .next (childDone s h j { x.setBank x.wr f with pptr := BitVec.ofNat 17 (x.pptr.toNat + 1) }) ∧
        f.Wrote x 4 col row fun r c i => (tile.px r c).extractLsb' (8 * i) 8

/-- The errors of VQ8 and VQ4: Truncated when no tile code is left, then IndexOutOfRange when the code is at or above
N4; no pixel is written (43_quadtree_video R185, R188, R192). What else the slot held and has a value outside a chunk is
kept at the trap, which is the model's choice (log entry 11). -/
def Obligations.TileCodeErrors : Prop :=
  (∀ (s : State) (h : Nat) (x : Session), s.phase = .video h .node → s.slots[h]? = some x →
      (x.cLen.toNat ≤ x.pptr.toNat → Traps s h .truncated x (exec .vq8 s)) ∧
      (∀ k : Byte, x.pptr.toNat < x.cLen.toNat → x.payload[x.pptr.toNat]? = some k → x.n4.toNat ≤ k.toNat →
        Traps s h .indexOutOfRange x (exec .vq8 s))) ∧
    (∀ (s : State) (h : Nat) (j : Fin 4) (x : Session), s.phase = .video h (.child j) → s.slots[h]? = some x →
      (x.cLen.toNat ≤ x.pptr.toNat → Traps s h .truncated x (exec .vq4 s)) ∧
      (∀ k : Byte, x.pptr.toNat < x.cLen.toNat → x.payload[x.pptr.toNat]? = some k → x.n4.toNat ≤ k.toNat →
        Traps s h .indexOutOfRange x (exec .vq4 s)))

/-- QUAD2: four tile codes are read and the four 2 x 2 tiles of CB2 fill the 4 x 4 child, top-left, top-right,
bottom-left, bottom-right (43_quadtree_video R193). `ks m` is code m and `ts m` its tile. -/
def Obligations.Quad2WritesFourTiles : Prop :=
  ∀ (s : State) (h : Nat) (j : Fin 4) (x : Session) (ks : Nat → Byte) (ts : Nat → Tile) (col row : Nat),
    s.phase = .video h (.child j) → s.slots[h]? = some x → x.cLen.toNat ≤ 65536 →
    x.pptr.toNat + 4 ≤ x.cLen.toNat →
    (∀ m < 4, x.payload[x.pptr.toNat + m]? = some (ks m) ∧ (ks m).toNat < x.n2.toNat ∧
      x.cb2[(ks m).toNat]? = some (ts m)) →
    x.addrTable[5 * x.leaf + 1 + j.val]? = some (col, row) → col + 4 ≤ x.w.toNat → row + 4 ≤ x.h.toNat →
    ∃ f : Surface,
      exec .quad2 s =
          .next (childDone s h j { x.setBank x.wr f with pptr := BitVec.ofNat 17 (x.pptr.toNat + 4) }) ∧
        f.Wrote x 4 col row fun r c i =>
          ((ts (2 * (r / 2) + c / 2)).px (r % 2) (c % 2)).extractLsb' (8 * i) 8

/-- The errors of QUAD2: at the first operand `m` that is missing or at or above N2 it raises Truncated or
IndexOutOfRange; the quadrants before it are written and no other byte of the writing bank (43_quadtree_video R193).
What else the slot held and has a value outside a chunk is kept at the trap, the banks included, which is the model's
choice (log entry 11). -/
def Obligations.Quad2Errors : Prop :=
  ∀ (s : State) (h : Nat) (j : Fin 4) (x : Session) (ks : Nat → Byte) (ts : Nat → Tile) (col row m : Nat),
    s.phase = .video h (.child j) → s.slots[h]? = some x → x.cLen.toNat ≤ 65536 → m < 4 →
    x.pptr.toNat + m ≤ x.cLen.toNat →
    (∀ q < m, x.payload[x.pptr.toNat + q]? = some (ks q) ∧ (ks q).toNat < x.n2.toNat ∧
      x.cb2[(ks q).toNat]? = some (ts q)) →
    x.addrTable[5 * x.leaf + 1 + j.val]? = some (col, row) → col + 4 ≤ x.w.toNat → row + 4 ≤ x.h.toNat →
    (x.cLen.toNat = x.pptr.toNat + m ∨
      (x.pptr.toNat + m < x.cLen.toNat ∧ x.payload[x.pptr.toNat + m]? = some (ks m) ∧ x.n2.toNat ≤ (ks m).toNat)) →
    ∃ f : Surface,
      Traps s h (if x.cLen.toNat = x.pptr.toNat + m then .truncated else .indexOutOfRange) (x.setBank x.wr f)
          (exec .quad2 s) ∧
        (∀ q < m, ∀ r < 2, ∀ c < 2, ∀ i < x.bpp.bytes,
          f.read (pixelOff x (col + 2 * (q % 2) + c) (row + 2 * (q / 2) + r) + i) =
            ((ts q).px r c).extractLsb' (8 * i) 8) ∧
        (∀ a, (∀ q < m, ∀ r < 2, ∀ c < 2, ∀ i < x.bpp.bytes,
            a ≠ pixelOff x (col + 2 * (q % 2) + c) (row + 2 * (q / 2) + r) + i) →
          f.read a = (x.bank x.wr).read a)

/-- When every node is done the frame is complete: the seeding copy of the active area if FIRST, the presentable frame,
the swap of the roles, the count; the chunk advances; every other byte of both banks and every other register that keeps
a value after the chunk stays (43_quadtree_video R196). -/
def Obligations.FrameCompletion : Prop :=
  ∀ (s : State) (h : Nat) (x : Session) (src : Source), s.phase = .video h .node → s.port = none →
    s.slots[h]? = some x → sourceOf s x = some src → x.atN ≤ x.leaf →
    ∃ (f0 f1 : Surface) (u : Session) (k : Nat),
      step s =
          .next (chunkDone s h x.cLen u k
            { x with
              fb0 := f0
              fb1 := f1
              first := false
              disp := x.wr
              frW := x.w
              frH := x.h
              hasFrame := true
              wr := x.wr.other
              decoded := BitVec.ofNat 64 (x.decoded.toNat + 1) }) ∧
        (∀ a, (if x.wr = .bank0 then f0 else f1).read a = (x.bank x.wr).read a) ∧
        (∀ a, (if x.wr = .bank0 then f1 else f0).read a =
          if x.first = true ∧ a < x.h.toNat * (x.w.toNat * x.bpp.bytes) then (x.bank x.wr).read a
          else (x.bank x.wr.other).read a)

/-- The frame GETFRAME hands out after a completed VIDEO chunk is the one just written: through the reference of that
moment every byte it covers reads as the writing bank held it when its last node was done (20_memory R71, 44_scheduler
R231). -/
def Obligations.PresentedFrameIsTheOneWritten : Prop :=
  ∀ (s t : State) (h : Nat) (x y : Session), s.phase = .video h .node → s.slots[h]? = some x → x.atN ≤ x.leaf →
    step s = .next t → t.slots[h]? = some y →
    ∀ a, (frameRef t h y).read t a =
      if a < x.h.toNat * (x.w.toNat * x.bpp.bytes) then some ((x.bank x.wr).read a) else none

/-! ## Audio -/

/-- AUDIO_MONO's and AUDIO_STEREO's opening: skipped whole when SILENT; otherwise ACC_L is seeded with C_AUX (mono), or
ACC_L with C_AUX1 * 256 and ACC_R with C_AUX0 * 256 (stereo), each minus 0x8000 when CFG_SIGNED_OUT, and the payload bytes
follow (45_audio R261, R262, R264, R265). -/
def Obligations.AudioChunkOpens : Prop :=
  ∀ (s : State) (h : Nat) (x : Session) (src : Source) (hd : ChunkHdr) (bias : BitVec 16), ChunkReady s h x src hd →
    bias = (if s.cfg.cfgSignedOut then 0x8000 else 0) →
    (x.silentFlag = true →
      ∃ (u : Session) (k : Nat),
        exec (.audioMono hd) s = .next (chunkDone s h hd.len u k (loaded src s.cfg.tagAudioMono hd x)) ∧
          exec (.audioStereo hd) s = .next (chunkDone s h hd.len u k (loaded src s.cfg.tagAudioStereo hd x))) ∧
    (x.silentFlag = false →
      exec (.audioMono hd) s =
          .next
            { s with
              slots := s.slots.set h
                { loaded src s.cfg.tagAudioMono hd x with
                  accL := (hd.aux1 ++ hd.aux0) - bias
                  audioBuf := []
                  audioPos := 0 }
              phase := .audio h false } ∧
        exec (.audioStereo hd) s =
          .next
            { s with
              slots := s.slots.set h
                { loaded src s.cfg.tagAudioStereo hd x with
                  accL := (hd.aux1 ++ (0 : Byte)) - bias
                  accR := (hd.aux0 ++ (0 : Byte)) - bias
                  audioBuf := []
                  audioPos := 0 }
              phase := .audio h true })

/-- DELTA: the accumulator of the byte's channel steps by the square of the byte's magnitude with the byte's sign,
wrapping in 16 bits, and the signed sample is appended, twice for mono; nothing else changes (45_audio R260 to R263,
30_encoding R105). -/
def Obligations.DeltaStepsTheAccumulator : Prop :=
  ∀ (s : State) (h : Nat) (stereo : Bool) (x : Session) (d : Byte) (square : Int) (acc acc' : BitVec 16),
    s.phase = .audio h stereo → s.slots[h]? = some x →
    acc = (if stereo = true ∧ x.audioPos % 2 = 1 then x.accR else x.accL) →
    square = ((d.toNat % 128 * (d.toNat % 128) : Nat) : Int) →
    acc' = BitVec.ofInt 16 (acc.toInt + (if d.toNat < 128 then square else -square)) →
    exec (.delta d) s =
      .next
        { s with
          slots := s.slots.set h
            { x with
              accL := if stereo = true ∧ x.audioPos % 2 = 1 then x.accL else acc'
              accR := if stereo = true ∧ x.audioPos % 2 = 1 then acc' else x.accR
              audioBuf := x.audioBuf ++ (if stereo then [acc'.toInt] else [acc'.toInt, acc'.toInt])
              audioPos := x.audioPos + 1 }
          phase := .audio h stereo }

/-- The body of an AUDIO_MONO chunk, run to its end: every payload byte steps ACC_L, and then one AudioPush of the samples
is appended to AUDIO_OUT unless there are none, and the chunk advances (45_audio R261, R266, R269). -/
def Obligations.AudioMonoChunkPushes : Prop :=
  ∀ (s : State) (h : Nat) (x : Session) (src : Source), s.phase = .audio h false → s.port = none →
    s.slots[h]? = some x → sourceOf s x = some src → x.audioPos = 0 → x.audioBuf = [] → x.payload.length = x.cLen.toNat →
    Host.Core.run Sys2Proof.core x.cLen.toNat s =
        .next
          { s with
            slots := s.slots.set h
              { x with
                accL := (monoRun x.accL x.payload).1
                audioBuf := (monoRun x.accL x.payload).2
                audioPos := x.cLen.toNat } } ∧
      ∃ (u : Session) (k : Nat),
        Host.Core.run Sys2Proof.core (x.cLen.toNat + 1) s =
          .next (chunkDone s h x.cLen u k
            { x with
              audioOut := x.audioOut ++
                (if x.cLen = 0 then [] else [⟨(monoRun x.accL x.payload).2, s.cfg.audioRate, 2⟩]) })

/-- The body of an AUDIO_STEREO chunk, run to its end: byte 2i steps ACC_L and byte 2i+1 ACC_R, an odd last byte is
ignored, and then one AudioPush of the samples is appended to AUDIO_OUT unless there are none, and the chunk advances
(45_audio R262, R266, R269). -/
def Obligations.AudioStereoChunkPushes : Prop :=
  ∀ (s : State) (h : Nat) (x : Session) (src : Source), s.phase = .audio h true → s.port = none →
    s.slots[h]? = some x → sourceOf s x = some src → x.audioPos = 0 → x.audioBuf = [] → x.payload.length = x.cLen.toNat →
    Host.Core.run Sys2Proof.core (2 * (x.cLen.toNat / 2)) s =
        .next
          { s with
            slots := s.slots.set h
              { x with
                accL := (stereoRun x.accL x.accR x.payload).1
                accR := (stereoRun x.accL x.accR x.payload).2.1
                audioBuf := (stereoRun x.accL x.accR x.payload).2.2
                audioPos := 2 * (x.cLen.toNat / 2) } } ∧
      ∃ (u : Session) (k : Nat),
        Host.Core.run Sys2Proof.core (2 * (x.cLen.toNat / 2) + 1) s =
          .next (chunkDone s h x.cLen u k
            { x with
              audioOut := x.audioOut ++
                (if x.cLen.toNat < 2 then []
                  else [⟨(stereoRun x.accL x.accR x.payload).2.2, s.cfg.audioRate, 2⟩]) })

/-! ## The host commands -/

/-- START takes the lowest free slot and resets it (the right-hand column of 10_state R44), with the header parse next.
What that column leaves unspecified is not said here: `n` is free there (44_scheduler R221 (1) to (3)). -/
def Obligations.StartResetsTheLowestFreeSlot : Prop :=
  ∀ (s : State) (i : Nat) (old : Session) (srcId : Nat) (src : Source) (x y w h : BitVec 32) (flags : BitVec 4)
    (now : BitVec 48),
    s.phase = .idle → s.slots[i]? = some old → old.inUse = false →
    (∀ j < i, ∀ z, s.slots[j]? = some z → z.inUse = true) → srcOpen s srcId = some src → 0 < src.len →
    src.len < 2 ^ 32 →
    ∃ (n : Session) (k : Nat),
      exec (.start srcId x y w h flags now) s =
          .next { s with slots := s.slots.set i n, phase := .header i false, result := none, freeCount := k } ∧
        n.inUse = true ∧ n.status = .play ∧ n.err = .none ∧ n.errOff = 0 ∧ n.loopFlag = flags.getLsbD 0 ∧
        n.holdFlag = flags.getLsbD 1 ∧ n.silentFlag = flags.getLsbD 2 ∧ n.globalFlag = flags.getLsbD 3 ∧
        n.srcId = srcId ∧ n.srcLen.toNat = src.len ∧ sourceOf s n = some src ∧ n.w = 0 ∧ n.h = 0 ∧ n.bpp = s.cfg.cfgBpp ∧ n.mode = 0 ∧
        n.dstX = x ∧ n.dstY = y ∧ n.dstW = w ∧ n.dstH = h ∧ n.startTime = now ∧ n.nowL = now ∧ n.decoded = 0 ∧
        n.target = 0 ∧ n.n2 = 0 ∧ n.n4 = 0 ∧ n.rawn = 0 ∧ n.atValid = false ∧ n.atN = 0 ∧ n.wr = .bank0 ∧
        n.first = true ∧ n.hasFrame = false ∧ n.audioOut = []

/-- START's errors, in order: NoSlot before the source is opened, then NotFound, then ZeroLength; no slot changes
(60_exceptions R287, 44_scheduler R221). -/
def Obligations.StartErrors : Prop :=
  ∀ (s : State) (srcId : Nat) (x y w h : BitVec 32) (flags : BitVec 4) (now : BitVec 48), s.phase = .idle →
    ((∀ z ∈ s.slots, z.inUse = true) →
      exec (.start srcId x y w h flags now) s = .next { s with result := some (.error .noSlot) }) ∧
    ((∃ z ∈ s.slots, z.inUse = false) → (∀ src ∈ s.sources, src.id ≠ srcId) →
      exec (.start srcId x y w h flags now) s = .next { s with result := some (.error .notFound) }) ∧
    (∀ src, (∃ z ∈ s.slots, z.inUse = false) → srcOpen s srcId = some src → src.len = 0 →
      exec (.start srcId x y w h flags now) s = .next { s with result := some (.error .zeroLength) })

/-- TICK on a valid handle. In Play or Looped: NOW_L and TARGET are written, STATUS is Play, and the catch-up loop begins.
In EndOfStream or Idle: it returns STATUS and writes NOW_L only (44_scheduler R222, R223, R227). Either way the frame
references of the slot go stale (70_reset_and_hazards R329), which the model counts in `leases` (log entry 16). -/
def Obligations.TickOnASession : Prop :=
  ∀ (s : State) (h : Nat) (x : Session) (src : Source) (now : BitVec 48), s.phase = .idle → s.slots[h]? = some x →
    x.inUse = true → sourceOf s x = some src →
    (x.status = .play ∨ x.status = .looped →
      exec (.tick h now) s =
        .next
          { s with
            slots := s.slots.set h
              { x with
                nowL := now
                status := .play
                target := BitVec.ofNat 64 ((now.toNat - x.startTime.toNat) * x.fps.toNat / 1000) }
            phase := .loop h
            result := none
            leases := s.leases.set h (s.leases.getD h 0 + 1) }) ∧
    (x.status = .endOfStream ∨ x.status = .idle →
      exec (.tick h now) s =
        .next
          { s with
            slots := s.slots.set h { x with nowL := now }
            result := some (.status x.status)
            leases := s.leases.set h (s.leases.getD h 0 + 1) })

/-- The target frame is computed exactly: the floor of elapsed milliseconds times FPS over 1000, 0 before START_TIME
(44_scheduler R223). -/
def Obligations.TargetIsExact : Prop :=
  ∀ (x : Session) (t : BitVec 48),
    (targetOf x t).toNat = (t.toNat - x.startTime.toNat) * x.fps.toNat / 1000

/-- The head of the catch-up loop: TICK returns STATUS unless STATUS is Play and a frame is due; then the next chunk is
fetched, or at end of data HOLD goes to Idle, else LOOP to the restart, else to EndOfStream with HAS_FRAME cleared
(44_scheduler R224, R225). In EndOfStream the banks `f0` and `f1` hold anything (10_state R39). -/
def Obligations.CatchUpLoopHead : Prop :=
  ∀ (s : State) (h : Nat) (x : Session) (src : Source), s.phase = .loop h → s.port = none → s.slots[h]? = some x →
    sourceOf s x = some src →
    (¬ (x.status = .play ∧ x.decoded.toNat < x.target.toNat) →
      step s = .next { s with phase := .idle, result := some (.status x.status) }) ∧
    (x.status = .play → x.decoded.toNat < x.target.toNat →
      (x.offset.toNat < x.srcLen.toNat → step s = .next { s with phase := .fetch h }) ∧
      (x.srcLen.toNat ≤ x.offset.toNat → x.holdFlag = true →
        step s = .next { s with slots := s.slots.set h { x with status := .idle } }) ∧
      (x.srcLen.toNat ≤ x.offset.toNat → x.holdFlag = false → x.loopFlag = true →
        step s = .next { s with phase := .header h true }) ∧
      (x.srcLen.toNat ≤ x.offset.toNat → x.holdFlag = false → x.loopFlag = false →
        ∃ (f0 f1 : Surface) (k : Nat),
          step s =
            .next
              { s with
                slots := s.slots.set h { x with status := .endOfStream, hasFrame := false, fb0 := f0, fb1 := f1 }
                freeCount := k }))

/-- STOP frees the slot whatever its state: STATUS EndOfStream, HAS_FRAME 0, IN_USE 0, and it returns EndOfStream; every
other register of the slot is unspecified, no other slot changes (44_scheduler R228). The frame references of the slot go stale
(70_reset_and_hazards R329), which the model counts in `leases` (log entry 16). -/
def Obligations.StopFreesTheSlot : Prop :=
  ∀ (s : State) (h : Nat) (x : Session), s.phase = .idle → s.slots[h]? = some x → x.inUse = true →
    ∃ (n : Session) (k : Nat),
      exec (.stop h) s =
          .next
            { s with
              slots := s.slots.set h n
              result := some (.status .endOfStream)
              leases := s.leases.set h (s.leases.getD h 0 + 1)
              freeCount := k } ∧
        n.inUse = false ∧ n.status = .endOfStream ∧ n.hasFrame = false

/-- GETFRAME returns the frame reference of R231 when HAS_FRAME is set and None otherwise, and changes no register; through
the reference the host reads, in the state it was handed out in, the bytes 0 .. height*line - 1 of FB[DISP] and no other
(44_scheduler R231). That the reference carries its slot and the slot's count in `leases` is the model's way to tell a stale
one (log entry 16). -/
def Obligations.GetframeReturnsTheReference : Prop :=
  ∀ (s : State) (h : Nat) (x : Session) (src : Source), s.phase = .idle → s.slots[h]? = some x → x.inUse = true →
    sourceOf s x = some src →
    (x.hasFrame = true →
      ∃ f : FrameRef,
        exec (.getframe h) s = .next { s with result := some (.frame f) } ∧
          f =
            { handle := h
              lease := s.leases.getD h 0
              bank := x.disp
              base := 0
              width := x.frW.toNat
              height := x.frH.toNat
              line := x.frW.toNat * x.bpp.bytes
              bpp := x.bpp
              x := x.dstX
              y := x.dstY
              w := x.dstW
              h := x.dstH } ∧
          ∀ a, f.read { s with result := some (.frame f) } a =
            if a < x.frH.toNat * (x.frW.toNat * x.bpp.bytes) then some ((x.bank x.disp).read a) else none) ∧
    (x.hasFrame = false → exec (.getframe h) s = .next { s with result := some .noFrame })

/-- RESUME makes Idle Play and changes nothing else; it returns STATUS (44_scheduler R229). -/
def Obligations.ResumeWakesIdleOnly : Prop :=
  ∀ (s : State) (h : Nat) (x : Session) (src : Source), s.phase = .idle → s.slots[h]? = some x → x.inUse = true →
    sourceOf s x = some src →
    (x.status = .idle →
      exec (.resume h) s =
        .next { s with slots := s.slots.set h { x with status := .play }, result := some (.status .play) }) ∧
    (x.status ≠ .idle → exec (.resume h) s = .next { s with result := some (.status x.status) })

/-- A handle at or beyond N_SESS, or of a free slot: TICK, STOP and RESUME return EndOfStream, GETFRAME returns None, and
nothing changes (44_scheduler R234). -/
def Obligations.InvalidHandles : Prop :=
  ∀ (s : State) (h : Nat) (now : BitVec 48), s.phase = .idle → s.slots.length = s.cfg.nSess →
    s.cfg.nSess ≤ h ∨ (∃ x, s.slots[h]? = some x ∧ x.inUse = false) →
    exec (.tick h now) s = .next { s with result := some (.status .endOfStream) } ∧
      exec (.stop h) s = .next { s with result := some (.status .endOfStream) } ∧
      exec (.resume h) s = .next { s with result := some (.status .endOfStream) } ∧
      exec (.getframe h) s = .next { s with result := some .noFrame }

/-- Outcome (c) of 00_scope R9: command codes 5, 6 and 7 are refused (30_encoding R108 (f)), and so is a command issued
while another has not completed: it is not queued, whatever its code (20_memory R73, 70_reset_and_hazards R330). So is every
step inside a command of a session whose source is gone or has another length or another byte than START opened, and every
TICK, GETFRAME and RESUME of such a session (70_reset_and_hazards R332, 20_memory R74, 93_implementation_defined U6). -/
def Obligations.CommandsRefused : Prop :=
  (∀ (s : State) (c : PortWord),
      s.phase = .idle → s.port = some c → 5 ≤ c.code.toNat → step s = .refused (.reservedCommand c.code)) ∧
    (∀ (s : State) (c : PortWord), s.phase ≠ .idle → s.port = some c → step s = .refused .commandWhileBusy) ∧
    (∀ s : State, s.phase ≠ .idle →
      (∀ srcId x y w h flags now, exec (.start srcId x y w h flags now) s = .refused .commandWhileBusy) ∧
        (∀ h now, exec (.tick h now) s = .refused .commandWhileBusy) ∧
        (∀ h, exec (.stop h) s = .refused .commandWhileBusy) ∧
        (∀ h, exec (.getframe h) s = .refused .commandWhileBusy) ∧
        (∀ h, exec (.resume h) s = .refused .commandWhileBusy)) ∧
    (∀ (s : State) (h : Nat) (x : Session), s.slots[h]? = some x → SourceChanged s x →
      (s.phase.slot = some h → s.port = none → step s = .refused .sourceChanged) ∧
        (s.phase = .idle → x.inUse = true →
          (∀ now, exec (.tick h now) s = .refused .sourceChanged) ∧
            exec (.getframe h) s = .refused .sourceChanged ∧ exec (.resume h) s = .refused .sourceChanged))

/-! ## Traps, flags, colours, reset -/

/-- Trap entry: STATUS, ERR, ERR_OFF and HAS_FRAME of the raising slot are written, and nothing else that has a value outside
a chunk; GLOBAL_OUT falls to 0; the command returns, TICK with EndOfStream and START with the handle (60_exceptions R290, R291, 10_state R34). That
RAWN, the tiles, a valid AT and the banks are kept is the model's choice (log entry 11, DEDUCED): R291 lets a model keep or
discard them. The registers and tables of the abandoned chunk hold anything (10_state R25). -/
def Obligations.TrapEntry : Prop :=
  ∀ (s : State) (h : Nat) (code : ErrCode) (x : Session),
    (∀ p, s.phase = p → (∀ n, p ≠ .header n false) → Traps s h code x (.next (raiseFatal s h code x))) ∧
      (s.phase = .header h false →
        ∃ (u : Session) (k : Nat),
          raiseFatal s h code x = { trapped s h code u k x with result := some (.handle h) }) ∧
      globalOut (trapEntry code x) = false

/-- The reference conversions pack their components: CONV2 red, green, blue in bits 15..11, 10..5, 4..0; CONV4 R, G, B, A
at byte offsets 0 to 3 with A = 255 (41_color_tables R153, R154, R155). The table values are general knowledge (R155,
log entries 4 and 20). -/
def Obligations.ReferenceColoursPack : Prop :=
  ∀ y u v : Byte,
    ((refConv2 y u v).extractLsb' 11 5).toNat = component (yyTab y + vrTab v) 9 31 ∧
      ((refConv2 y u v).extractLsb' 5 6).toNat = component (yyTab y + ugTab u + vgTab v) 8 63 ∧
      ((refConv2 y u v).extractLsb' 0 5).toNat = component (yyTab y + ubTab u) 9 31 ∧
      ((refConv4 y u v).extractLsb' 0 8).toNat = component (yyTab y + vrTab v) 6 255 ∧
      ((refConv4 y u v).extractLsb' 8 8).toNat = component (yyTab y + ugTab u + vgTab v) 6 255 ∧
      ((refConv4 y u v).extractLsb' 16 8).toNat = component (yyTab y + ubTab u) 6 255 ∧
      (refConv4 y u v).extractLsb' 24 8 = 255

/-- After hardware reset every slot is free, in EndOfStream, without error or frame, with an empty AUDIO_OUT, and no
step does anything until a command is presented (70_reset_and_hazards R320). -/
def Obligations.ResetLeaves : Prop :=
  State.reset.slots.length = State.reset.cfg.nSess ∧
    (∀ x ∈ State.reset.slots, x.inUse = false ∧ x.status = .endOfStream ∧ x.err = .none ∧ x.errOff = 0 ∧
      x.hasFrame = false ∧ x.audioOut = []) ∧
    step State.reset = .next State.reset

/-! ## Rules of the whole machine -/

/-- The invariant holds at reset. -/
def Obligations.InvHoldsAtReset : Prop := State.reset.Inv

/-- Every step keeps the invariant: memories in canonical form and inside the surfaces (20_memory R70), OFFSET within the
source, MODE 0, BPP CFG_BPP, the counts within the tables (10_state R33), AT that of the present size when valid (R32),
the presentable frame in the bank not written next (43_quadtree_video R197), ERR set in EndOfStream only, the audio
events legal (45_audio R266), and the work registers of the chunk in progress. -/
def Obligations.InvKeptByEveryStep : Prop :=
  ∀ s t : State, s.Inv → step s = .next t → t.Inv

/-- From every state that meets the invariant, if the host keeps its duties, a step has a successor: it neither faults
nor is refused, whatever the bytes of the sources (00_scope R9). -/
def Obligations.EveryStepGoes : Prop :=
  ∀ s : State, s.Inv → s.HostObeys → s.Goes

/-- Every command terminates: from every state that meets the invariant in the middle of a command, with no other command
on the port, finitely many steps return to the place where the next command is taken (44_scheduler R236). -/
def Obligations.EveryCommandTerminates : Prop :=
  ∀ (s : State) (h : Nat), s.Inv → s.phase.slot = some h → s.port = none →
    ∃ (n : Nat) (t : State), Host.Core.run Sys2Proof.core n s = .next t ∧ t.phase = .idle

/-- EndOfStream is terminal: a step leaves a session in EndOfStream as it is but for NOW_L, or frees its slot
(60_exceptions R292). -/
def Obligations.EndOfStreamIsTerminal : Prop :=
  ∀ (s t : State) (h : Nat) (x : Session), s.Inv → step s = .next t → s.slots[h]? = some x → x.inUse = true →
    x.status = .endOfStream →
    ∃ y, t.slots[h]? = some y ∧ (y = { x with nowL := y.nowL } ∨ y.inUse = false)

/-- A step changes no slot but the one it works for: the slot of the phase, or the slot a command addresses, for START a
free one; and no step writes the parameters or a source (44_scheduler R235, 20_memory R74, R76). -/
def Obligations.OneSlotChanges : Prop :=
  ∀ s t : State, step s = .next t →
    t.cfg = s.cfg ∧ t.sources = s.sources ∧
    (∀ h, s.phase.slot = some h → ∀ k, k ≠ h → t.slots[k]? = s.slots[k]?) ∧
    (∀ c, s.phase = .idle → s.port = some c →
      (c.code = 0 → ∀ (k : Nat) (x : Session), s.slots[k]? = some x → x.inUse = true → t.slots[k]? = some x) ∧
      (c.code ≠ 0 → ∀ k, k ≠ c.handle → t.slots[k]? = s.slots[k]?))

/-- Isolation: inside a command, what another slot holds has no influence on the step (20_memory R76). -/
def Obligations.SlotsDoNotInterfere : Prop :=
  ∀ (s t : State) (h k : Nat) (z : Session), s.phase.slot = some h → k ≠ h → step s = .next t →
    step { s with slots := s.slots.set k z } = .next { t with slots := t.slots.set k z }

/-- What START latched stays for the life of the session: the flags, the source, the rectangle, BPP, MODE
(10_state R30, 70_reset_and_hazards R337). -/
def Obligations.LatchedRegistersStay : Prop :=
  ∀ (s t : State) (h : Nat) (x : Session), step s = .next t → s.slots[h]? = some x → x.inUse = true →
    ∃ y, t.slots[h]? = some y ∧
      (y.inUse = false ∨
        (y.inUse = true ∧ y.loopFlag = x.loopFlag ∧ y.holdFlag = x.holdFlag ∧ y.silentFlag = x.silentFlag ∧
          y.globalFlag = x.globalFlag ∧ y.srcId = x.srcId ∧ y.srcLen = x.srcLen ∧ y.srcBytes = x.srcBytes ∧ y.dstX = x.dstX ∧
          y.dstY = x.dstY ∧ y.dstW = x.dstW ∧ y.dstH = x.dstH ∧ y.bpp = x.bpp ∧ y.mode = x.mode))

/-- DECODED never decreases within a pass: only a loop restart, or freeing the slot, can lower it (44_scheduler
R233). -/
def Obligations.DecodedNeverDecreases : Prop :=
  ∀ (s t : State) (h : Nat) (x : Session), s.Inv → step s = .next t → s.slots[h]? = some x → x.inUse = true →
    ∃ y, t.slots[h]? = some y ∧
      (y.inUse = false ∨ s.phase = .header h true ∨ x.decoded.toNat ≤ y.decoded.toNat)

/-- Inside a TICK DECODED does not pass TARGET, which stays that of the latest `now`: every step keeps this for the
slot it works for (44_scheduler R224). The header parse of START, before any TICK, is not in it. -/
def Obligations.DecodedNeverPassesTarget : Prop :=
  ∀ (s t : State) (h : Nat) (x : Session), s.Inv → s.phase.slot = some h → s.phase ≠ .header h false →
    s.slots[h]? = some x → x.OnTime → step s = .next t → ∃ y, t.slots[h]? = some y ∧ y.OnTime
end

