-- ==== Sys2Proof/Laws/State.lean ====
section
/-! SUPPORT. One lemma per field per update: what the shared updates of the state and of a session leave in each field. -/

namespace Sys2Proof.Machine

/-! ## The updates of the state -/

@[simp] theorem State.setSlot_cfg (s : State) (h : Nat) (x : Session) : (s.setSlot h x).cfg = s.cfg := rfl
@[simp] theorem State.setSlot_sources (s : State) (h : Nat) (x : Session) : (s.setSlot h x).sources = s.sources := rfl
@[simp] theorem State.setSlot_slots (s : State) (h : Nat) (x : Session) : (s.setSlot h x).slots = s.slots.set h x := rfl
@[simp] theorem State.setSlot_phase (s : State) (h : Nat) (x : Session) : (s.setSlot h x).phase = s.phase := rfl
@[simp] theorem State.setSlot_port (s : State) (h : Nat) (x : Session) : (s.setSlot h x).port = s.port := rfl
@[simp] theorem State.setSlot_result (s : State) (h : Nat) (x : Session) : (s.setSlot h x).result = s.result := rfl
@[simp] theorem State.setSlot_leases (s : State) (h : Nat) (x : Session) : (s.setSlot h x).leases = s.leases := rfl
@[simp] theorem State.setSlot_freeCount (s : State) (h : Nat) (x : Session) : (s.setSlot h x).freeCount = s.freeCount := rfl

@[simp] theorem State.answer_cfg (s : State) (r : Result) : (s.answer r).cfg = s.cfg := rfl
@[simp] theorem State.answer_sources (s : State) (r : Result) : (s.answer r).sources = s.sources := rfl
@[simp] theorem State.answer_slots (s : State) (r : Result) : (s.answer r).slots = s.slots := rfl
@[simp] theorem State.answer_phase (s : State) (r : Result) : (s.answer r).phase = .idle := rfl
@[simp] theorem State.answer_port (s : State) (r : Result) : (s.answer r).port = s.port := rfl
@[simp] theorem State.answer_result (s : State) (r : Result) : (s.answer r).result = some r := rfl
@[simp] theorem State.answer_leases (s : State) (r : Result) : (s.answer r).leases = s.leases := rfl
@[simp] theorem State.answer_freeCount (s : State) (r : Result) : (s.answer r).freeCount = s.freeCount := rfl

@[simp] theorem raiseFatal_cfg (s : State) (h : Nat) (e : ErrCode) (x : Session) : (raiseFatal s h e x).cfg = s.cfg := rfl
@[simp] theorem raiseFatal_sources (s : State) (h : Nat) (e : ErrCode) (x : Session) : (raiseFatal s h e x).sources = s.sources := rfl
@[simp] theorem raiseFatal_slots (s : State) (h : Nat) (e : ErrCode) (x : Session) : (raiseFatal s h e x).slots = s.slots.set h (retireChunk s.freeCount (trapEntry e x)) := rfl
@[simp] theorem raiseFatal_phase (s : State) (h : Nat) (e : ErrCode) (x : Session) : (raiseFatal s h e x).phase = .idle := rfl
@[simp] theorem raiseFatal_port (s : State) (h : Nat) (e : ErrCode) (x : Session) : (raiseFatal s h e x).port = s.port := rfl
@[simp] theorem raiseFatal_result (s : State) (h : Nat) (e : ErrCode) (x : Session) : (raiseFatal s h e x).result = some (trapAnswer s.phase) := rfl
@[simp] theorem raiseFatal_leases (s : State) (h : Nat) (e : ErrCode) (x : Session) : (raiseFatal s h e x).leases = s.leases := rfl
@[simp] theorem raiseFatal_freeCount (s : State) (h : Nat) (e : ErrCode) (x : Session) : (raiseFatal s h e x).freeCount = s.freeCount + 1 := rfl

@[simp] theorem State.expireRefs_cfg (s : State) (h : Nat) : (s.expireRefs h).cfg = s.cfg := rfl
@[simp] theorem State.expireRefs_sources (s : State) (h : Nat) : (s.expireRefs h).sources = s.sources := rfl
@[simp] theorem State.expireRefs_slots (s : State) (h : Nat) : (s.expireRefs h).slots = s.slots := rfl
@[simp] theorem State.expireRefs_phase (s : State) (h : Nat) : (s.expireRefs h).phase = s.phase := rfl
@[simp] theorem State.expireRefs_port (s : State) (h : Nat) : (s.expireRefs h).port = s.port := rfl
@[simp] theorem State.expireRefs_result (s : State) (h : Nat) : (s.expireRefs h).result = s.result := rfl
@[simp] theorem State.expireRefs_freeCount (s : State) (h : Nat) : (s.expireRefs h).freeCount = s.freeCount := rfl
@[simp] theorem State.expireRefs_leases (s : State) (h : Nat) : (s.expireRefs h).leases = s.leases.set h (s.lease h + 1) := rfl

/-! ## The updates of a session -/

@[simp] theorem trapEntry_inUse (e : ErrCode) (x : Session) : (trapEntry e x).inUse = x.inUse := rfl
@[simp] theorem trapEntry_status (e : ErrCode) (x : Session) : (trapEntry e x).status = .endOfStream := rfl
@[simp] theorem trapEntry_err (e : ErrCode) (x : Session) : (trapEntry e x).err = e := rfl
@[simp] theorem trapEntry_errOff (e : ErrCode) (x : Session) : (trapEntry e x).errOff = x.offset := rfl
@[simp] theorem trapEntry_loopFlag (e : ErrCode) (x : Session) : (trapEntry e x).loopFlag = x.loopFlag := rfl
@[simp] theorem trapEntry_holdFlag (e : ErrCode) (x : Session) : (trapEntry e x).holdFlag = x.holdFlag := rfl
@[simp] theorem trapEntry_silentFlag (e : ErrCode) (x : Session) : (trapEntry e x).silentFlag = x.silentFlag := rfl
@[simp] theorem trapEntry_globalFlag (e : ErrCode) (x : Session) : (trapEntry e x).globalFlag = x.globalFlag := rfl
@[simp] theorem trapEntry_srcId (e : ErrCode) (x : Session) : (trapEntry e x).srcId = x.srcId := rfl
@[simp] theorem trapEntry_srcLen (e : ErrCode) (x : Session) : (trapEntry e x).srcLen = x.srcLen := rfl
@[simp] theorem trapEntry_srcBytes (e : ErrCode) (x : Session) : (trapEntry e x).srcBytes = x.srcBytes := rfl
@[simp] theorem trapEntry_offset (e : ErrCode) (x : Session) : (trapEntry e x).offset = x.offset := rfl
@[simp] theorem trapEntry_fps (e : ErrCode) (x : Session) : (trapEntry e x).fps = x.fps := rfl
@[simp] theorem trapEntry_w (e : ErrCode) (x : Session) : (trapEntry e x).w = x.w := rfl
@[simp] theorem trapEntry_h (e : ErrCode) (x : Session) : (trapEntry e x).h = x.h := rfl
@[simp] theorem trapEntry_bpp (e : ErrCode) (x : Session) : (trapEntry e x).bpp = x.bpp := rfl
@[simp] theorem trapEntry_mode (e : ErrCode) (x : Session) : (trapEntry e x).mode = x.mode := rfl
@[simp] theorem trapEntry_dstX (e : ErrCode) (x : Session) : (trapEntry e x).dstX = x.dstX := rfl
@[simp] theorem trapEntry_dstY (e : ErrCode) (x : Session) : (trapEntry e x).dstY = x.dstY := rfl
@[simp] theorem trapEntry_dstW (e : ErrCode) (x : Session) : (trapEntry e x).dstW = x.dstW := rfl
@[simp] theorem trapEntry_dstH (e : ErrCode) (x : Session) : (trapEntry e x).dstH = x.dstH := rfl
@[simp] theorem trapEntry_startTime (e : ErrCode) (x : Session) : (trapEntry e x).startTime = x.startTime := rfl
@[simp] theorem trapEntry_nowL (e : ErrCode) (x : Session) : (trapEntry e x).nowL = x.nowL := rfl
@[simp] theorem trapEntry_decoded (e : ErrCode) (x : Session) : (trapEntry e x).decoded = x.decoded := rfl
@[simp] theorem trapEntry_target (e : ErrCode) (x : Session) : (trapEntry e x).target = x.target := rfl
@[simp] theorem trapEntry_n2 (e : ErrCode) (x : Session) : (trapEntry e x).n2 = x.n2 := rfl
@[simp] theorem trapEntry_n4 (e : ErrCode) (x : Session) : (trapEntry e x).n4 = x.n4 := rfl
@[simp] theorem trapEntry_rawn (e : ErrCode) (x : Session) : (trapEntry e x).rawn = x.rawn := rfl
@[simp] theorem trapEntry_inmem (e : ErrCode) (x : Session) : (trapEntry e x).inmem = x.inmem := rfl
@[simp] theorem trapEntry_atValid (e : ErrCode) (x : Session) : (trapEntry e x).atValid = x.atValid := rfl
@[simp] theorem trapEntry_atN (e : ErrCode) (x : Session) : (trapEntry e x).atN = x.atN := rfl
@[simp] theorem trapEntry_wr (e : ErrCode) (x : Session) : (trapEntry e x).wr = x.wr := rfl
@[simp] theorem trapEntry_first (e : ErrCode) (x : Session) : (trapEntry e x).first = x.first := rfl
@[simp] theorem trapEntry_hasFrame (e : ErrCode) (x : Session) : (trapEntry e x).hasFrame = false := rfl
@[simp] theorem trapEntry_disp (e : ErrCode) (x : Session) : (trapEntry e x).disp = x.disp := rfl
@[simp] theorem trapEntry_frW (e : ErrCode) (x : Session) : (trapEntry e x).frW = x.frW := rfl
@[simp] theorem trapEntry_frH (e : ErrCode) (x : Session) : (trapEntry e x).frH = x.frH := rfl
@[simp] theorem trapEntry_cType (e : ErrCode) (x : Session) : (trapEntry e x).cType = x.cType := rfl
@[simp] theorem trapEntry_cLen (e : ErrCode) (x : Session) : (trapEntry e x).cLen = x.cLen := rfl
@[simp] theorem trapEntry_cAux0 (e : ErrCode) (x : Session) : (trapEntry e x).cAux0 = x.cAux0 := rfl
@[simp] theorem trapEntry_cAux1 (e : ErrCode) (x : Session) : (trapEntry e x).cAux1 = x.cAux1 := rfl
@[simp] theorem trapEntry_opw (e : ErrCode) (x : Session) : (trapEntry e x).opw = x.opw := rfl
@[simp] theorem trapEntry_opn (e : ErrCode) (x : Session) : (trapEntry e x).opn = x.opn := rfl
@[simp] theorem trapEntry_pptr (e : ErrCode) (x : Session) : (trapEntry e x).pptr = x.pptr := rfl
@[simp] theorem trapEntry_leaf (e : ErrCode) (x : Session) : (trapEntry e x).leaf = x.leaf := rfl
@[simp] theorem trapEntry_mdx (e : ErrCode) (x : Session) : (trapEntry e x).mdx = x.mdx := rfl
@[simp] theorem trapEntry_mdy (e : ErrCode) (x : Session) : (trapEntry e x).mdy = x.mdy := rfl
@[simp] theorem trapEntry_accL (e : ErrCode) (x : Session) : (trapEntry e x).accL = x.accL := rfl
@[simp] theorem trapEntry_accR (e : ErrCode) (x : Session) : (trapEntry e x).accR = x.accR := rfl
@[simp] theorem trapEntry_audioBuf (e : ErrCode) (x : Session) : (trapEntry e x).audioBuf = x.audioBuf := rfl
@[simp] theorem trapEntry_audioPos (e : ErrCode) (x : Session) : (trapEntry e x).audioPos = x.audioPos := rfl
@[simp] theorem trapEntry_cb2 (e : ErrCode) (x : Session) : (trapEntry e x).cb2 = x.cb2 := rfl
@[simp] theorem trapEntry_cb4 (e : ErrCode) (x : Session) : (trapEntry e x).cb4 = x.cb4 := rfl
@[simp] theorem trapEntry_cb8 (e : ErrCode) (x : Session) : (trapEntry e x).cb8 = x.cb8 := rfl
@[simp] theorem trapEntry_mcomp (e : ErrCode) (x : Session) : (trapEntry e x).mcomp = x.mcomp := rfl
@[simp] theorem trapEntry_addrTable (e : ErrCode) (x : Session) : (trapEntry e x).addrTable = x.addrTable := rfl
@[simp] theorem trapEntry_payload (e : ErrCode) (x : Session) : (trapEntry e x).payload = x.payload := rfl
@[simp] theorem trapEntry_fb0 (e : ErrCode) (x : Session) : (trapEntry e x).fb0 = x.fb0 := rfl
@[simp] theorem trapEntry_fb1 (e : ErrCode) (x : Session) : (trapEntry e x).fb1 = x.fb1 := rfl
@[simp] theorem trapEntry_audioOut (e : ErrCode) (x : Session) : (trapEntry e x).audioOut = x.audioOut := rfl

@[simp] theorem advance_inUse (x : Session) : (advance x).inUse = x.inUse := rfl
@[simp] theorem advance_status (x : Session) : (advance x).status = x.status := rfl
@[simp] theorem advance_err (x : Session) : (advance x).err = x.err := rfl
@[simp] theorem advance_errOff (x : Session) : (advance x).errOff = x.errOff := rfl
@[simp] theorem advance_loopFlag (x : Session) : (advance x).loopFlag = x.loopFlag := rfl
@[simp] theorem advance_holdFlag (x : Session) : (advance x).holdFlag = x.holdFlag := rfl
@[simp] theorem advance_silentFlag (x : Session) : (advance x).silentFlag = x.silentFlag := rfl
@[simp] theorem advance_globalFlag (x : Session) : (advance x).globalFlag = x.globalFlag := rfl
@[simp] theorem advance_srcId (x : Session) : (advance x).srcId = x.srcId := rfl
@[simp] theorem advance_srcLen (x : Session) : (advance x).srcLen = x.srcLen := rfl
@[simp] theorem advance_srcBytes (x : Session) : (advance x).srcBytes = x.srcBytes := rfl
@[simp] theorem advance_offset (x : Session) : (advance x).offset = BitVec.ofNat 32 (x.offset.toNat + Config.chunkHdr + x.cLen.toNat) := rfl
@[simp] theorem advance_fps (x : Session) : (advance x).fps = x.fps := rfl
@[simp] theorem advance_w (x : Session) : (advance x).w = x.w := rfl
@[simp] theorem advance_h (x : Session) : (advance x).h = x.h := rfl
@[simp] theorem advance_bpp (x : Session) : (advance x).bpp = x.bpp := rfl
@[simp] theorem advance_mode (x : Session) : (advance x).mode = x.mode := rfl
@[simp] theorem advance_dstX (x : Session) : (advance x).dstX = x.dstX := rfl
@[simp] theorem advance_dstY (x : Session) : (advance x).dstY = x.dstY := rfl
@[simp] theorem advance_dstW (x : Session) : (advance x).dstW = x.dstW := rfl
@[simp] theorem advance_dstH (x : Session) : (advance x).dstH = x.dstH := rfl
@[simp] theorem advance_startTime (x : Session) : (advance x).startTime = x.startTime := rfl
@[simp] theorem advance_nowL (x : Session) : (advance x).nowL = x.nowL := rfl
@[simp] theorem advance_decoded (x : Session) : (advance x).decoded = x.decoded := rfl
@[simp] theorem advance_target (x : Session) : (advance x).target = x.target := rfl
@[simp] theorem advance_n2 (x : Session) : (advance x).n2 = x.n2 := rfl
@[simp] theorem advance_n4 (x : Session) : (advance x).n4 = x.n4 := rfl
@[simp] theorem advance_rawn (x : Session) : (advance x).rawn = x.rawn := rfl
@[simp] theorem advance_inmem (x : Session) : (advance x).inmem = x.inmem := rfl
@[simp] theorem advance_atValid (x : Session) : (advance x).atValid = x.atValid := rfl
@[simp] theorem advance_atN (x : Session) : (advance x).atN = x.atN := rfl
@[simp] theorem advance_wr (x : Session) : (advance x).wr = x.wr := rfl
@[simp] theorem advance_first (x : Session) : (advance x).first = x.first := rfl
@[simp] theorem advance_hasFrame (x : Session) : (advance x).hasFrame = x.hasFrame := rfl
@[simp] theorem advance_disp (x : Session) : (advance x).disp = x.disp := rfl
@[simp] theorem advance_frW (x : Session) : (advance x).frW = x.frW := rfl
@[simp] theorem advance_frH (x : Session) : (advance x).frH = x.frH := rfl
@[simp] theorem advance_cType (x : Session) : (advance x).cType = x.cType := rfl
@[simp] theorem advance_cLen (x : Session) : (advance x).cLen = x.cLen := rfl
@[simp] theorem advance_cAux0 (x : Session) : (advance x).cAux0 = x.cAux0 := rfl
@[simp] theorem advance_cAux1 (x : Session) : (advance x).cAux1 = x.cAux1 := rfl
@[simp] theorem advance_opw (x : Session) : (advance x).opw = x.opw := rfl
@[simp] theorem advance_opn (x : Session) : (advance x).opn = x.opn := rfl
@[simp] theorem advance_pptr (x : Session) : (advance x).pptr = x.pptr := rfl
@[simp] theorem advance_leaf (x : Session) : (advance x).leaf = x.leaf := rfl
@[simp] theorem advance_mdx (x : Session) : (advance x).mdx = x.mdx := rfl
@[simp] theorem advance_mdy (x : Session) : (advance x).mdy = x.mdy := rfl
@[simp] theorem advance_accL (x : Session) : (advance x).accL = x.accL := rfl
@[simp] theorem advance_accR (x : Session) : (advance x).accR = x.accR := rfl
@[simp] theorem advance_audioBuf (x : Session) : (advance x).audioBuf = x.audioBuf := rfl
@[simp] theorem advance_audioPos (x : Session) : (advance x).audioPos = x.audioPos := rfl
@[simp] theorem advance_cb2 (x : Session) : (advance x).cb2 = x.cb2 := rfl
@[simp] theorem advance_cb4 (x : Session) : (advance x).cb4 = x.cb4 := rfl
@[simp] theorem advance_cb8 (x : Session) : (advance x).cb8 = x.cb8 := rfl
@[simp] theorem advance_mcomp (x : Session) : (advance x).mcomp = x.mcomp := rfl
@[simp] theorem advance_addrTable (x : Session) : (advance x).addrTable = x.addrTable := rfl
@[simp] theorem advance_payload (x : Session) : (advance x).payload = x.payload := rfl
@[simp] theorem advance_fb0 (x : Session) : (advance x).fb0 = x.fb0 := rfl
@[simp] theorem advance_fb1 (x : Session) : (advance x).fb1 = x.fb1 := rfl
@[simp] theorem advance_audioOut (x : Session) : (advance x).audioOut = x.audioOut := rfl

@[simp] theorem nextLeaf_inUse (x : Session) : (nextLeaf x).inUse = x.inUse := rfl
@[simp] theorem nextLeaf_status (x : Session) : (nextLeaf x).status = x.status := rfl
@[simp] theorem nextLeaf_err (x : Session) : (nextLeaf x).err = x.err := rfl
@[simp] theorem nextLeaf_errOff (x : Session) : (nextLeaf x).errOff = x.errOff := rfl
@[simp] theorem nextLeaf_loopFlag (x : Session) : (nextLeaf x).loopFlag = x.loopFlag := rfl
@[simp] theorem nextLeaf_holdFlag (x : Session) : (nextLeaf x).holdFlag = x.holdFlag := rfl
@[simp] theorem nextLeaf_silentFlag (x : Session) : (nextLeaf x).silentFlag = x.silentFlag := rfl
@[simp] theorem nextLeaf_globalFlag (x : Session) : (nextLeaf x).globalFlag = x.globalFlag := rfl
@[simp] theorem nextLeaf_srcId (x : Session) : (nextLeaf x).srcId = x.srcId := rfl
@[simp] theorem nextLeaf_srcLen (x : Session) : (nextLeaf x).srcLen = x.srcLen := rfl
@[simp] theorem nextLeaf_srcBytes (x : Session) : (nextLeaf x).srcBytes = x.srcBytes := rfl
@[simp] theorem nextLeaf_offset (x : Session) : (nextLeaf x).offset = x.offset := rfl
@[simp] theorem nextLeaf_fps (x : Session) : (nextLeaf x).fps = x.fps := rfl
@[simp] theorem nextLeaf_w (x : Session) : (nextLeaf x).w = x.w := rfl
@[simp] theorem nextLeaf_h (x : Session) : (nextLeaf x).h = x.h := rfl
@[simp] theorem nextLeaf_bpp (x : Session) : (nextLeaf x).bpp = x.bpp := rfl
@[simp] theorem nextLeaf_mode (x : Session) : (nextLeaf x).mode = x.mode := rfl
@[simp] theorem nextLeaf_dstX (x : Session) : (nextLeaf x).dstX = x.dstX := rfl
@[simp] theorem nextLeaf_dstY (x : Session) : (nextLeaf x).dstY = x.dstY := rfl
@[simp] theorem nextLeaf_dstW (x : Session) : (nextLeaf x).dstW = x.dstW := rfl
@[simp] theorem nextLeaf_dstH (x : Session) : (nextLeaf x).dstH = x.dstH := rfl
@[simp] theorem nextLeaf_startTime (x : Session) : (nextLeaf x).startTime = x.startTime := rfl
@[simp] theorem nextLeaf_nowL (x : Session) : (nextLeaf x).nowL = x.nowL := rfl
@[simp] theorem nextLeaf_decoded (x : Session) : (nextLeaf x).decoded = x.decoded := rfl
@[simp] theorem nextLeaf_target (x : Session) : (nextLeaf x).target = x.target := rfl
@[simp] theorem nextLeaf_n2 (x : Session) : (nextLeaf x).n2 = x.n2 := rfl
@[simp] theorem nextLeaf_n4 (x : Session) : (nextLeaf x).n4 = x.n4 := rfl
@[simp] theorem nextLeaf_rawn (x : Session) : (nextLeaf x).rawn = x.rawn := rfl
@[simp] theorem nextLeaf_inmem (x : Session) : (nextLeaf x).inmem = x.inmem := rfl
@[simp] theorem nextLeaf_atValid (x : Session) : (nextLeaf x).atValid = x.atValid := rfl
@[simp] theorem nextLeaf_atN (x : Session) : (nextLeaf x).atN = x.atN := rfl
@[simp] theorem nextLeaf_wr (x : Session) : (nextLeaf x).wr = x.wr := rfl
@[simp] theorem nextLeaf_first (x : Session) : (nextLeaf x).first = x.first := rfl
@[simp] theorem nextLeaf_hasFrame (x : Session) : (nextLeaf x).hasFrame = x.hasFrame := rfl
@[simp] theorem nextLeaf_disp (x : Session) : (nextLeaf x).disp = x.disp := rfl
@[simp] theorem nextLeaf_frW (x : Session) : (nextLeaf x).frW = x.frW := rfl
@[simp] theorem nextLeaf_frH (x : Session) : (nextLeaf x).frH = x.frH := rfl
@[simp] theorem nextLeaf_cType (x : Session) : (nextLeaf x).cType = x.cType := rfl
@[simp] theorem nextLeaf_cLen (x : Session) : (nextLeaf x).cLen = x.cLen := rfl
@[simp] theorem nextLeaf_cAux0 (x : Session) : (nextLeaf x).cAux0 = x.cAux0 := rfl
@[simp] theorem nextLeaf_cAux1 (x : Session) : (nextLeaf x).cAux1 = x.cAux1 := rfl
@[simp] theorem nextLeaf_opw (x : Session) : (nextLeaf x).opw = x.opw := rfl
@[simp] theorem nextLeaf_opn (x : Session) : (nextLeaf x).opn = x.opn := rfl
@[simp] theorem nextLeaf_pptr (x : Session) : (nextLeaf x).pptr = x.pptr := rfl
@[simp] theorem nextLeaf_leaf (x : Session) : (nextLeaf x).leaf = x.leaf + 1 := rfl
@[simp] theorem nextLeaf_mdx (x : Session) : (nextLeaf x).mdx = x.mdx := rfl
@[simp] theorem nextLeaf_mdy (x : Session) : (nextLeaf x).mdy = x.mdy := rfl
@[simp] theorem nextLeaf_accL (x : Session) : (nextLeaf x).accL = x.accL := rfl
@[simp] theorem nextLeaf_accR (x : Session) : (nextLeaf x).accR = x.accR := rfl
@[simp] theorem nextLeaf_audioBuf (x : Session) : (nextLeaf x).audioBuf = x.audioBuf := rfl
@[simp] theorem nextLeaf_audioPos (x : Session) : (nextLeaf x).audioPos = x.audioPos := rfl
@[simp] theorem nextLeaf_cb2 (x : Session) : (nextLeaf x).cb2 = x.cb2 := rfl
@[simp] theorem nextLeaf_cb4 (x : Session) : (nextLeaf x).cb4 = x.cb4 := rfl
@[simp] theorem nextLeaf_cb8 (x : Session) : (nextLeaf x).cb8 = x.cb8 := rfl
@[simp] theorem nextLeaf_mcomp (x : Session) : (nextLeaf x).mcomp = x.mcomp := rfl
@[simp] theorem nextLeaf_addrTable (x : Session) : (nextLeaf x).addrTable = x.addrTable := rfl
@[simp] theorem nextLeaf_payload (x : Session) : (nextLeaf x).payload = x.payload := rfl
@[simp] theorem nextLeaf_fb0 (x : Session) : (nextLeaf x).fb0 = x.fb0 := rfl
@[simp] theorem nextLeaf_fb1 (x : Session) : (nextLeaf x).fb1 = x.fb1 := rfl
@[simp] theorem nextLeaf_audioOut (x : Session) : (nextLeaf x).audioOut = x.audioOut := rfl

@[simp] theorem loadPayload_inUse (src : Source) (x : Session) : (loadPayload src x).inUse = x.inUse := rfl
@[simp] theorem loadPayload_status (src : Source) (x : Session) : (loadPayload src x).status = x.status := rfl
@[simp] theorem loadPayload_err (src : Source) (x : Session) : (loadPayload src x).err = x.err := rfl
@[simp] theorem loadPayload_errOff (src : Source) (x : Session) : (loadPayload src x).errOff = x.errOff := rfl
@[simp] theorem loadPayload_loopFlag (src : Source) (x : Session) : (loadPayload src x).loopFlag = x.loopFlag := rfl
@[simp] theorem loadPayload_holdFlag (src : Source) (x : Session) : (loadPayload src x).holdFlag = x.holdFlag := rfl
@[simp] theorem loadPayload_silentFlag (src : Source) (x : Session) : (loadPayload src x).silentFlag = x.silentFlag := rfl
@[simp] theorem loadPayload_globalFlag (src : Source) (x : Session) : (loadPayload src x).globalFlag = x.globalFlag := rfl
@[simp] theorem loadPayload_srcId (src : Source) (x : Session) : (loadPayload src x).srcId = x.srcId := rfl
@[simp] theorem loadPayload_srcLen (src : Source) (x : Session) : (loadPayload src x).srcLen = x.srcLen := rfl
@[simp] theorem loadPayload_srcBytes (src : Source) (x : Session) : (loadPayload src x).srcBytes = x.srcBytes := rfl
@[simp] theorem loadPayload_offset (src : Source) (x : Session) : (loadPayload src x).offset = x.offset := rfl
@[simp] theorem loadPayload_fps (src : Source) (x : Session) : (loadPayload src x).fps = x.fps := rfl
@[simp] theorem loadPayload_w (src : Source) (x : Session) : (loadPayload src x).w = x.w := rfl
@[simp] theorem loadPayload_h (src : Source) (x : Session) : (loadPayload src x).h = x.h := rfl
@[simp] theorem loadPayload_bpp (src : Source) (x : Session) : (loadPayload src x).bpp = x.bpp := rfl
@[simp] theorem loadPayload_mode (src : Source) (x : Session) : (loadPayload src x).mode = x.mode := rfl
@[simp] theorem loadPayload_dstX (src : Source) (x : Session) : (loadPayload src x).dstX = x.dstX := rfl
@[simp] theorem loadPayload_dstY (src : Source) (x : Session) : (loadPayload src x).dstY = x.dstY := rfl
@[simp] theorem loadPayload_dstW (src : Source) (x : Session) : (loadPayload src x).dstW = x.dstW := rfl
@[simp] theorem loadPayload_dstH (src : Source) (x : Session) : (loadPayload src x).dstH = x.dstH := rfl
@[simp] theorem loadPayload_startTime (src : Source) (x : Session) : (loadPayload src x).startTime = x.startTime := rfl
@[simp] theorem loadPayload_nowL (src : Source) (x : Session) : (loadPayload src x).nowL = x.nowL := rfl
@[simp] theorem loadPayload_decoded (src : Source) (x : Session) : (loadPayload src x).decoded = x.decoded := rfl
@[simp] theorem loadPayload_target (src : Source) (x : Session) : (loadPayload src x).target = x.target := rfl
@[simp] theorem loadPayload_n2 (src : Source) (x : Session) : (loadPayload src x).n2 = x.n2 := rfl
@[simp] theorem loadPayload_n4 (src : Source) (x : Session) : (loadPayload src x).n4 = x.n4 := rfl
@[simp] theorem loadPayload_rawn (src : Source) (x : Session) : (loadPayload src x).rawn = countRaw x.rawn := rfl
@[simp] theorem loadPayload_inmem (src : Source) (x : Session) : (loadPayload src x).inmem = x.inmem := rfl
@[simp] theorem loadPayload_atValid (src : Source) (x : Session) : (loadPayload src x).atValid = x.atValid := rfl
@[simp] theorem loadPayload_atN (src : Source) (x : Session) : (loadPayload src x).atN = x.atN := rfl
@[simp] theorem loadPayload_wr (src : Source) (x : Session) : (loadPayload src x).wr = x.wr := rfl
@[simp] theorem loadPayload_first (src : Source) (x : Session) : (loadPayload src x).first = x.first := rfl
@[simp] theorem loadPayload_hasFrame (src : Source) (x : Session) : (loadPayload src x).hasFrame = x.hasFrame := rfl
@[simp] theorem loadPayload_disp (src : Source) (x : Session) : (loadPayload src x).disp = x.disp := rfl
@[simp] theorem loadPayload_frW (src : Source) (x : Session) : (loadPayload src x).frW = x.frW := rfl
@[simp] theorem loadPayload_frH (src : Source) (x : Session) : (loadPayload src x).frH = x.frH := rfl
@[simp] theorem loadPayload_cType (src : Source) (x : Session) : (loadPayload src x).cType = x.cType := rfl
@[simp] theorem loadPayload_cLen (src : Source) (x : Session) : (loadPayload src x).cLen = x.cLen := rfl
@[simp] theorem loadPayload_cAux0 (src : Source) (x : Session) : (loadPayload src x).cAux0 = x.cAux0 := rfl
@[simp] theorem loadPayload_cAux1 (src : Source) (x : Session) : (loadPayload src x).cAux1 = x.cAux1 := rfl
@[simp] theorem loadPayload_opw (src : Source) (x : Session) : (loadPayload src x).opw = x.opw := rfl
@[simp] theorem loadPayload_opn (src : Source) (x : Session) : (loadPayload src x).opn = x.opn := rfl
@[simp] theorem loadPayload_pptr (src : Source) (x : Session) : (loadPayload src x).pptr = x.pptr := rfl
@[simp] theorem loadPayload_leaf (src : Source) (x : Session) : (loadPayload src x).leaf = x.leaf := rfl
@[simp] theorem loadPayload_mdx (src : Source) (x : Session) : (loadPayload src x).mdx = x.mdx := rfl
@[simp] theorem loadPayload_mdy (src : Source) (x : Session) : (loadPayload src x).mdy = x.mdy := rfl
@[simp] theorem loadPayload_accL (src : Source) (x : Session) : (loadPayload src x).accL = x.accL := rfl
@[simp] theorem loadPayload_accR (src : Source) (x : Session) : (loadPayload src x).accR = x.accR := rfl
@[simp] theorem loadPayload_audioBuf (src : Source) (x : Session) : (loadPayload src x).audioBuf = x.audioBuf := rfl
@[simp] theorem loadPayload_audioPos (src : Source) (x : Session) : (loadPayload src x).audioPos = x.audioPos := rfl
@[simp] theorem loadPayload_cb2 (src : Source) (x : Session) : (loadPayload src x).cb2 = x.cb2 := rfl
@[simp] theorem loadPayload_cb4 (src : Source) (x : Session) : (loadPayload src x).cb4 = x.cb4 := rfl
@[simp] theorem loadPayload_cb8 (src : Source) (x : Session) : (loadPayload src x).cb8 = x.cb8 := rfl
@[simp] theorem loadPayload_mcomp (src : Source) (x : Session) : (loadPayload src x).mcomp = x.mcomp := rfl
@[simp] theorem loadPayload_addrTable (src : Source) (x : Session) : (loadPayload src x).addrTable = x.addrTable := rfl
@[simp] theorem loadPayload_payload (src : Source) (x : Session) : (loadPayload src x).payload = srcRead src (x.offset.toNat + Config.chunkHdr) x.cLen.toNat := rfl
@[simp] theorem loadPayload_fb0 (src : Source) (x : Session) : (loadPayload src x).fb0 = x.fb0 := rfl
@[simp] theorem loadPayload_fb1 (src : Source) (x : Session) : (loadPayload src x).fb1 = x.fb1 := rfl
@[simp] theorem loadPayload_audioOut (src : Source) (x : Session) : (loadPayload src x).audioOut = x.audioOut := rfl

@[simp] theorem retireChunk_inUse (k : Nat) (x : Session) : (retireChunk k x).inUse = x.inUse := rfl
@[simp] theorem retireChunk_status (k : Nat) (x : Session) : (retireChunk k x).status = x.status := rfl
@[simp] theorem retireChunk_err (k : Nat) (x : Session) : (retireChunk k x).err = x.err := rfl
@[simp] theorem retireChunk_errOff (k : Nat) (x : Session) : (retireChunk k x).errOff = x.errOff := rfl
@[simp] theorem retireChunk_loopFlag (k : Nat) (x : Session) : (retireChunk k x).loopFlag = x.loopFlag := rfl
@[simp] theorem retireChunk_holdFlag (k : Nat) (x : Session) : (retireChunk k x).holdFlag = x.holdFlag := rfl
@[simp] theorem retireChunk_silentFlag (k : Nat) (x : Session) : (retireChunk k x).silentFlag = x.silentFlag := rfl
@[simp] theorem retireChunk_globalFlag (k : Nat) (x : Session) : (retireChunk k x).globalFlag = x.globalFlag := rfl
@[simp] theorem retireChunk_srcId (k : Nat) (x : Session) : (retireChunk k x).srcId = x.srcId := rfl
@[simp] theorem retireChunk_srcLen (k : Nat) (x : Session) : (retireChunk k x).srcLen = x.srcLen := rfl
@[simp] theorem retireChunk_srcBytes (k : Nat) (x : Session) : (retireChunk k x).srcBytes = x.srcBytes := rfl
@[simp] theorem retireChunk_offset (k : Nat) (x : Session) : (retireChunk k x).offset = x.offset := rfl
@[simp] theorem retireChunk_fps (k : Nat) (x : Session) : (retireChunk k x).fps = x.fps := rfl
@[simp] theorem retireChunk_w (k : Nat) (x : Session) : (retireChunk k x).w = x.w := rfl
@[simp] theorem retireChunk_h (k : Nat) (x : Session) : (retireChunk k x).h = x.h := rfl
@[simp] theorem retireChunk_bpp (k : Nat) (x : Session) : (retireChunk k x).bpp = x.bpp := rfl
@[simp] theorem retireChunk_mode (k : Nat) (x : Session) : (retireChunk k x).mode = x.mode := rfl
@[simp] theorem retireChunk_dstX (k : Nat) (x : Session) : (retireChunk k x).dstX = x.dstX := rfl
@[simp] theorem retireChunk_dstY (k : Nat) (x : Session) : (retireChunk k x).dstY = x.dstY := rfl
@[simp] theorem retireChunk_dstW (k : Nat) (x : Session) : (retireChunk k x).dstW = x.dstW := rfl
@[simp] theorem retireChunk_dstH (k : Nat) (x : Session) : (retireChunk k x).dstH = x.dstH := rfl
@[simp] theorem retireChunk_startTime (k : Nat) (x : Session) : (retireChunk k x).startTime = x.startTime := rfl
@[simp] theorem retireChunk_nowL (k : Nat) (x : Session) : (retireChunk k x).nowL = x.nowL := rfl
@[simp] theorem retireChunk_decoded (k : Nat) (x : Session) : (retireChunk k x).decoded = x.decoded := rfl
@[simp] theorem retireChunk_target (k : Nat) (x : Session) : (retireChunk k x).target = x.target := rfl
@[simp] theorem retireChunk_n2 (k : Nat) (x : Session) : (retireChunk k x).n2 = x.n2 := rfl
@[simp] theorem retireChunk_n4 (k : Nat) (x : Session) : (retireChunk k x).n4 = x.n4 := rfl
@[simp] theorem retireChunk_rawn (k : Nat) (x : Session) : (retireChunk k x).rawn = x.rawn := rfl
@[simp] theorem retireChunk_inmem (k : Nat) (x : Session) : (retireChunk k x).inmem = x.inmem := rfl
@[simp] theorem retireChunk_atValid (k : Nat) (x : Session) : (retireChunk k x).atValid = x.atValid := rfl
@[simp] theorem retireChunk_atN (k : Nat) (x : Session) : (retireChunk k x).atN = x.atN := rfl
@[simp] theorem retireChunk_wr (k : Nat) (x : Session) : (retireChunk k x).wr = x.wr := rfl
@[simp] theorem retireChunk_first (k : Nat) (x : Session) : (retireChunk k x).first = x.first := rfl
@[simp] theorem retireChunk_hasFrame (k : Nat) (x : Session) : (retireChunk k x).hasFrame = x.hasFrame := rfl
@[simp] theorem retireChunk_disp (k : Nat) (x : Session) : (retireChunk k x).disp = x.disp := rfl
@[simp] theorem retireChunk_frW (k : Nat) (x : Session) : (retireChunk k x).frW = x.frW := rfl
@[simp] theorem retireChunk_frH (k : Nat) (x : Session) : (retireChunk k x).frH = x.frH := rfl
@[simp] theorem retireChunk_cType (k : Nat) (x : Session) : (retireChunk k x).cType = (Config.unspecifiedSession k).cType := rfl
@[simp] theorem retireChunk_cLen (k : Nat) (x : Session) : (retireChunk k x).cLen = (Config.unspecifiedSession k).cLen := rfl
@[simp] theorem retireChunk_cAux0 (k : Nat) (x : Session) : (retireChunk k x).cAux0 = (Config.unspecifiedSession k).cAux0 := rfl
@[simp] theorem retireChunk_cAux1 (k : Nat) (x : Session) : (retireChunk k x).cAux1 = (Config.unspecifiedSession k).cAux1 := rfl
@[simp] theorem retireChunk_opw (k : Nat) (x : Session) : (retireChunk k x).opw = (Config.unspecifiedSession k).opw := rfl
@[simp] theorem retireChunk_opn (k : Nat) (x : Session) : (retireChunk k x).opn = (Config.unspecifiedSession k).opn := rfl
@[simp] theorem retireChunk_pptr (k : Nat) (x : Session) : (retireChunk k x).pptr = (Config.unspecifiedSession k).pptr := rfl
@[simp] theorem retireChunk_leaf (k : Nat) (x : Session) : (retireChunk k x).leaf = (Config.unspecifiedSession k).leaf := rfl
@[simp] theorem retireChunk_mdx (k : Nat) (x : Session) : (retireChunk k x).mdx = (Config.unspecifiedSession k).mdx := rfl
@[simp] theorem retireChunk_mdy (k : Nat) (x : Session) : (retireChunk k x).mdy = (Config.unspecifiedSession k).mdy := rfl
@[simp] theorem retireChunk_accL (k : Nat) (x : Session) : (retireChunk k x).accL = (Config.unspecifiedSession k).accL := rfl
@[simp] theorem retireChunk_accR (k : Nat) (x : Session) : (retireChunk k x).accR = (Config.unspecifiedSession k).accR := rfl
@[simp] theorem retireChunk_audioBuf (k : Nat) (x : Session) : (retireChunk k x).audioBuf = (Config.unspecifiedSession k).audioBuf := rfl
@[simp] theorem retireChunk_audioPos (k : Nat) (x : Session) : (retireChunk k x).audioPos = (Config.unspecifiedSession k).audioPos := rfl
@[simp] theorem retireChunk_cb2 (k : Nat) (x : Session) : (retireChunk k x).cb2 = x.cb2 := rfl
@[simp] theorem retireChunk_cb4 (k : Nat) (x : Session) : (retireChunk k x).cb4 = x.cb4 := rfl
@[simp] theorem retireChunk_cb8 (k : Nat) (x : Session) : (retireChunk k x).cb8 = x.cb8 := rfl
@[simp] theorem retireChunk_mcomp (k : Nat) (x : Session) : (retireChunk k x).mcomp = (Config.unspecifiedSession k).mcomp := rfl
@[simp] theorem retireChunk_addrTable (k : Nat) (x : Session) : (retireChunk k x).addrTable = if x.atValid then x.addrTable else (Config.unspecifiedSession k).addrTable := rfl
@[simp] theorem retireChunk_payload (k : Nat) (x : Session) : (retireChunk k x).payload = (Config.unspecifiedSession k).payload := rfl
@[simp] theorem retireChunk_fb0 (k : Nat) (x : Session) : (retireChunk k x).fb0 = x.fb0 := rfl
@[simp] theorem retireChunk_fb1 (k : Nat) (x : Session) : (retireChunk k x).fb1 = x.fb1 := rfl
@[simp] theorem retireChunk_audioOut (k : Nat) (x : Session) : (retireChunk k x).audioOut = x.audioOut := rfl

@[simp] theorem restartRegs_inUse (k : Nat) (x : Session) : (restartRegs k x).inUse = x.inUse := rfl
@[simp] theorem restartRegs_status (k : Nat) (x : Session) : (restartRegs k x).status = .looped := rfl
@[simp] theorem restartRegs_err (k : Nat) (x : Session) : (restartRegs k x).err = x.err := rfl
@[simp] theorem restartRegs_errOff (k : Nat) (x : Session) : (restartRegs k x).errOff = x.errOff := rfl
@[simp] theorem restartRegs_loopFlag (k : Nat) (x : Session) : (restartRegs k x).loopFlag = x.loopFlag := rfl
@[simp] theorem restartRegs_holdFlag (k : Nat) (x : Session) : (restartRegs k x).holdFlag = x.holdFlag := rfl
@[simp] theorem restartRegs_silentFlag (k : Nat) (x : Session) : (restartRegs k x).silentFlag = x.silentFlag := rfl
@[simp] theorem restartRegs_globalFlag (k : Nat) (x : Session) : (restartRegs k x).globalFlag = x.globalFlag := rfl
@[simp] theorem restartRegs_srcId (k : Nat) (x : Session) : (restartRegs k x).srcId = x.srcId := rfl
@[simp] theorem restartRegs_srcLen (k : Nat) (x : Session) : (restartRegs k x).srcLen = x.srcLen := rfl
@[simp] theorem restartRegs_srcBytes (k : Nat) (x : Session) : (restartRegs k x).srcBytes = x.srcBytes := rfl
@[simp] theorem restartRegs_offset (k : Nat) (x : Session) : (restartRegs k x).offset = x.offset := rfl
@[simp] theorem restartRegs_fps (k : Nat) (x : Session) : (restartRegs k x).fps = x.fps := rfl
@[simp] theorem restartRegs_w (k : Nat) (x : Session) : (restartRegs k x).w = x.w := rfl
@[simp] theorem restartRegs_h (k : Nat) (x : Session) : (restartRegs k x).h = x.h := rfl
@[simp] theorem restartRegs_bpp (k : Nat) (x : Session) : (restartRegs k x).bpp = x.bpp := rfl
@[simp] theorem restartRegs_mode (k : Nat) (x : Session) : (restartRegs k x).mode = x.mode := rfl
@[simp] theorem restartRegs_dstX (k : Nat) (x : Session) : (restartRegs k x).dstX = x.dstX := rfl
@[simp] theorem restartRegs_dstY (k : Nat) (x : Session) : (restartRegs k x).dstY = x.dstY := rfl
@[simp] theorem restartRegs_dstW (k : Nat) (x : Session) : (restartRegs k x).dstW = x.dstW := rfl
@[simp] theorem restartRegs_dstH (k : Nat) (x : Session) : (restartRegs k x).dstH = x.dstH := rfl
@[simp] theorem restartRegs_startTime (k : Nat) (x : Session) : (restartRegs k x).startTime = x.nowL := rfl
@[simp] theorem restartRegs_nowL (k : Nat) (x : Session) : (restartRegs k x).nowL = x.nowL := rfl
@[simp] theorem restartRegs_decoded (k : Nat) (x : Session) : (restartRegs k x).decoded = 0 := rfl
@[simp] theorem restartRegs_target (k : Nat) (x : Session) : (restartRegs k x).target = 0 := rfl
@[simp] theorem restartRegs_n2 (k : Nat) (x : Session) : (restartRegs k x).n2 = 0 := rfl
@[simp] theorem restartRegs_n4 (k : Nat) (x : Session) : (restartRegs k x).n4 = 0 := rfl
@[simp] theorem restartRegs_rawn (k : Nat) (x : Session) : (restartRegs k x).rawn = 0 := rfl
@[simp] theorem restartRegs_inmem (k : Nat) (x : Session) : (restartRegs k x).inmem = x.inmem := rfl
@[simp] theorem restartRegs_atValid (k : Nat) (x : Session) : (restartRegs k x).atValid = x.atValid := rfl
@[simp] theorem restartRegs_atN (k : Nat) (x : Session) : (restartRegs k x).atN = x.atN := rfl
@[simp] theorem restartRegs_wr (k : Nat) (x : Session) : (restartRegs k x).wr = x.wr := rfl
@[simp] theorem restartRegs_first (k : Nat) (x : Session) : (restartRegs k x).first = true := rfl
@[simp] theorem restartRegs_hasFrame (k : Nat) (x : Session) : (restartRegs k x).hasFrame = x.hasFrame := rfl
@[simp] theorem restartRegs_disp (k : Nat) (x : Session) : (restartRegs k x).disp = x.disp := rfl
@[simp] theorem restartRegs_frW (k : Nat) (x : Session) : (restartRegs k x).frW = x.frW := rfl
@[simp] theorem restartRegs_frH (k : Nat) (x : Session) : (restartRegs k x).frH = x.frH := rfl
@[simp] theorem restartRegs_cType (k : Nat) (x : Session) : (restartRegs k x).cType = x.cType := rfl
@[simp] theorem restartRegs_cLen (k : Nat) (x : Session) : (restartRegs k x).cLen = x.cLen := rfl
@[simp] theorem restartRegs_cAux0 (k : Nat) (x : Session) : (restartRegs k x).cAux0 = x.cAux0 := rfl
@[simp] theorem restartRegs_cAux1 (k : Nat) (x : Session) : (restartRegs k x).cAux1 = x.cAux1 := rfl
@[simp] theorem restartRegs_opw (k : Nat) (x : Session) : (restartRegs k x).opw = x.opw := rfl
@[simp] theorem restartRegs_opn (k : Nat) (x : Session) : (restartRegs k x).opn = x.opn := rfl
@[simp] theorem restartRegs_pptr (k : Nat) (x : Session) : (restartRegs k x).pptr = x.pptr := rfl
@[simp] theorem restartRegs_leaf (k : Nat) (x : Session) : (restartRegs k x).leaf = x.leaf := rfl
@[simp] theorem restartRegs_mdx (k : Nat) (x : Session) : (restartRegs k x).mdx = x.mdx := rfl
@[simp] theorem restartRegs_mdy (k : Nat) (x : Session) : (restartRegs k x).mdy = x.mdy := rfl
@[simp] theorem restartRegs_accL (k : Nat) (x : Session) : (restartRegs k x).accL = x.accL := rfl
@[simp] theorem restartRegs_accR (k : Nat) (x : Session) : (restartRegs k x).accR = x.accR := rfl
@[simp] theorem restartRegs_audioBuf (k : Nat) (x : Session) : (restartRegs k x).audioBuf = x.audioBuf := rfl
@[simp] theorem restartRegs_audioPos (k : Nat) (x : Session) : (restartRegs k x).audioPos = x.audioPos := rfl
@[simp] theorem restartRegs_cb2 (k : Nat) (x : Session) : (restartRegs k x).cb2 = (Config.unspecifiedSession k).cb2 := rfl
@[simp] theorem restartRegs_cb4 (k : Nat) (x : Session) : (restartRegs k x).cb4 = (Config.unspecifiedSession k).cb4 := rfl
@[simp] theorem restartRegs_cb8 (k : Nat) (x : Session) : (restartRegs k x).cb8 = (Config.unspecifiedSession k).cb8 := rfl
@[simp] theorem restartRegs_mcomp (k : Nat) (x : Session) : (restartRegs k x).mcomp = x.mcomp := rfl
@[simp] theorem restartRegs_addrTable (k : Nat) (x : Session) : (restartRegs k x).addrTable = x.addrTable := rfl
@[simp] theorem restartRegs_payload (k : Nat) (x : Session) : (restartRegs k x).payload = x.payload := rfl
@[simp] theorem restartRegs_fb0 (k : Nat) (x : Session) : (restartRegs k x).fb0 = x.fb0 := rfl
@[simp] theorem restartRegs_fb1 (k : Nat) (x : Session) : (restartRegs k x).fb1 = x.fb1 := rfl
@[simp] theorem restartRegs_audioOut (k : Nat) (x : Session) : (restartRegs k x).audioOut = x.audioOut := rfl

@[simp] theorem setBank_inUse (x : Session) (b : BankId) (f : Surface) : (x.setBank b f).inUse = x.inUse := by cases b <;> rfl
@[simp] theorem setBank_status (x : Session) (b : BankId) (f : Surface) : (x.setBank b f).status = x.status := by cases b <;> rfl
@[simp] theorem setBank_err (x : Session) (b : BankId) (f : Surface) : (x.setBank b f).err = x.err := by cases b <;> rfl
@[simp] theorem setBank_errOff (x : Session) (b : BankId) (f : Surface) : (x.setBank b f).errOff = x.errOff := by cases b <;> rfl
@[simp] theorem setBank_loopFlag (x : Session) (b : BankId) (f : Surface) : (x.setBank b f).loopFlag = x.loopFlag := by cases b <;> rfl
@[simp] theorem setBank_holdFlag (x : Session) (b : BankId) (f : Surface) : (x.setBank b f).holdFlag = x.holdFlag := by cases b <;> rfl
@[simp] theorem setBank_silentFlag (x : Session) (b : BankId) (f : Surface) : (x.setBank b f).silentFlag = x.silentFlag := by cases b <;> rfl
@[simp] theorem setBank_globalFlag (x : Session) (b : BankId) (f : Surface) : (x.setBank b f).globalFlag = x.globalFlag := by cases b <;> rfl
@[simp] theorem setBank_srcId (x : Session) (b : BankId) (f : Surface) : (x.setBank b f).srcId = x.srcId := by cases b <;> rfl
@[simp] theorem setBank_srcLen (x : Session) (b : BankId) (f : Surface) : (x.setBank b f).srcLen = x.srcLen := by cases b <;> rfl
@[simp] theorem setBank_srcBytes (x : Session) (b : BankId) (f : Surface) : (x.setBank b f).srcBytes = x.srcBytes := by cases b <;> rfl
@[simp] theorem setBank_offset (x : Session) (b : BankId) (f : Surface) : (x.setBank b f).offset = x.offset := by cases b <;> rfl
@[simp] theorem setBank_fps (x : Session) (b : BankId) (f : Surface) : (x.setBank b f).fps = x.fps := by cases b <;> rfl
@[simp] theorem setBank_w (x : Session) (b : BankId) (f : Surface) : (x.setBank b f).w = x.w := by cases b <;> rfl
@[simp] theorem setBank_h (x : Session) (b : BankId) (f : Surface) : (x.setBank b f).h = x.h := by cases b <;> rfl
@[simp] theorem setBank_bpp (x : Session) (b : BankId) (f : Surface) : (x.setBank b f).bpp = x.bpp := by cases b <;> rfl
@[simp] theorem setBank_mode (x : Session) (b : BankId) (f : Surface) : (x.setBank b f).mode = x.mode := by cases b <;> rfl
@[simp] theorem setBank_dstX (x : Session) (b : BankId) (f : Surface) : (x.setBank b f).dstX = x.dstX := by cases b <;> rfl
@[simp] theorem setBank_dstY (x : Session) (b : BankId) (f : Surface) : (x.setBank b f).dstY = x.dstY := by cases b <;> rfl
@[simp] theorem setBank_dstW (x : Session) (b : BankId) (f : Surface) : (x.setBank b f).dstW = x.dstW := by cases b <;> rfl
@[simp] theorem setBank_dstH (x : Session) (b : BankId) (f : Surface) : (x.setBank b f).dstH = x.dstH := by cases b <;> rfl
@[simp] theorem setBank_startTime (x : Session) (b : BankId) (f : Surface) : (x.setBank b f).startTime = x.startTime := by cases b <;> rfl
@[simp] theorem setBank_nowL (x : Session) (b : BankId) (f : Surface) : (x.setBank b f).nowL = x.nowL := by cases b <;> rfl
@[simp] theorem setBank_decoded (x : Session) (b : BankId) (f : Surface) : (x.setBank b f).decoded = x.decoded := by cases b <;> rfl
@[simp] theorem setBank_target (x : Session) (b : BankId) (f : Surface) : (x.setBank b f).target = x.target := by cases b <;> rfl
@[simp] theorem setBank_n2 (x : Session) (b : BankId) (f : Surface) : (x.setBank b f).n2 = x.n2 := by cases b <;> rfl
@[simp] theorem setBank_n4 (x : Session) (b : BankId) (f : Surface) : (x.setBank b f).n4 = x.n4 := by cases b <;> rfl
@[simp] theorem setBank_rawn (x : Session) (b : BankId) (f : Surface) : (x.setBank b f).rawn = x.rawn := by cases b <;> rfl
@[simp] theorem setBank_inmem (x : Session) (b : BankId) (f : Surface) : (x.setBank b f).inmem = x.inmem := by cases b <;> rfl
@[simp] theorem setBank_atValid (x : Session) (b : BankId) (f : Surface) : (x.setBank b f).atValid = x.atValid := by cases b <;> rfl
@[simp] theorem setBank_atN (x : Session) (b : BankId) (f : Surface) : (x.setBank b f).atN = x.atN := by cases b <;> rfl
@[simp] theorem setBank_wr (x : Session) (b : BankId) (f : Surface) : (x.setBank b f).wr = x.wr := by cases b <;> rfl
@[simp] theorem setBank_first (x : Session) (b : BankId) (f : Surface) : (x.setBank b f).first = x.first := by cases b <;> rfl
@[simp] theorem setBank_hasFrame (x : Session) (b : BankId) (f : Surface) : (x.setBank b f).hasFrame = x.hasFrame := by cases b <;> rfl
@[simp] theorem setBank_disp (x : Session) (b : BankId) (f : Surface) : (x.setBank b f).disp = x.disp := by cases b <;> rfl
@[simp] theorem setBank_frW (x : Session) (b : BankId) (f : Surface) : (x.setBank b f).frW = x.frW := by cases b <;> rfl
@[simp] theorem setBank_frH (x : Session) (b : BankId) (f : Surface) : (x.setBank b f).frH = x.frH := by cases b <;> rfl
@[simp] theorem setBank_cType (x : Session) (b : BankId) (f : Surface) : (x.setBank b f).cType = x.cType := by cases b <;> rfl
@[simp] theorem setBank_cLen (x : Session) (b : BankId) (f : Surface) : (x.setBank b f).cLen = x.cLen := by cases b <;> rfl
@[simp] theorem setBank_cAux0 (x : Session) (b : BankId) (f : Surface) : (x.setBank b f).cAux0 = x.cAux0 := by cases b <;> rfl
@[simp] theorem setBank_cAux1 (x : Session) (b : BankId) (f : Surface) : (x.setBank b f).cAux1 = x.cAux1 := by cases b <;> rfl
@[simp] theorem setBank_opw (x : Session) (b : BankId) (f : Surface) : (x.setBank b f).opw = x.opw := by cases b <;> rfl
@[simp] theorem setBank_opn (x : Session) (b : BankId) (f : Surface) : (x.setBank b f).opn = x.opn := by cases b <;> rfl
@[simp] theorem setBank_pptr (x : Session) (b : BankId) (f : Surface) : (x.setBank b f).pptr = x.pptr := by cases b <;> rfl
@[simp] theorem setBank_leaf (x : Session) (b : BankId) (f : Surface) : (x.setBank b f).leaf = x.leaf := by cases b <;> rfl
@[simp] theorem setBank_mdx (x : Session) (b : BankId) (f : Surface) : (x.setBank b f).mdx = x.mdx := by cases b <;> rfl
@[simp] theorem setBank_mdy (x : Session) (b : BankId) (f : Surface) : (x.setBank b f).mdy = x.mdy := by cases b <;> rfl
@[simp] theorem setBank_accL (x : Session) (b : BankId) (f : Surface) : (x.setBank b f).accL = x.accL := by cases b <;> rfl
@[simp] theorem setBank_accR (x : Session) (b : BankId) (f : Surface) : (x.setBank b f).accR = x.accR := by cases b <;> rfl
@[simp] theorem setBank_audioBuf (x : Session) (b : BankId) (f : Surface) : (x.setBank b f).audioBuf = x.audioBuf := by cases b <;> rfl
@[simp] theorem setBank_audioPos (x : Session) (b : BankId) (f : Surface) : (x.setBank b f).audioPos = x.audioPos := by cases b <;> rfl
@[simp] theorem setBank_cb2 (x : Session) (b : BankId) (f : Surface) : (x.setBank b f).cb2 = x.cb2 := by cases b <;> rfl
@[simp] theorem setBank_cb4 (x : Session) (b : BankId) (f : Surface) : (x.setBank b f).cb4 = x.cb4 := by cases b <;> rfl
@[simp] theorem setBank_cb8 (x : Session) (b : BankId) (f : Surface) : (x.setBank b f).cb8 = x.cb8 := by cases b <;> rfl
@[simp] theorem setBank_mcomp (x : Session) (b : BankId) (f : Surface) : (x.setBank b f).mcomp = x.mcomp := by cases b <;> rfl
@[simp] theorem setBank_addrTable (x : Session) (b : BankId) (f : Surface) : (x.setBank b f).addrTable = x.addrTable := by cases b <;> rfl
@[simp] theorem setBank_payload (x : Session) (b : BankId) (f : Surface) : (x.setBank b f).payload = x.payload := by cases b <;> rfl
@[simp] theorem setBank_audioOut (x : Session) (b : BankId) (f : Surface) : (x.setBank b f).audioOut = x.audioOut := by cases b <;> rfl

theorem setBank_fb0 (x : Session) (b : BankId) (f : Surface) :
    (x.setBank b f).fb0 = if b = .bank0 then f else x.fb0 := by cases b <;> rfl

theorem setBank_fb1 (x : Session) (b : BankId) (f : Surface) :
    (x.setBank b f).fb1 = if b = .bank1 then f else x.fb1 := by cases b <;> rfl

@[simp] theorem bank_setBank_self (x : Session) (b : BankId) (f : Surface) : (x.setBank b f).bank b = f := by
  cases b <;> rfl

@[simp] theorem bank_setBank_other (x : Session) (b : BankId) (f : Surface) :
    (x.setBank b f).bank b.other = x.bank b.other := by
  cases b <;> rfl

@[simp] theorem BankId.other_other (b : BankId) : b.other.other = b := by cases b <;> rfl

@[simp] theorem BankId.other_ne (b : BankId) : b.other ≠ b := by cases b <;> decide

theorem deltaStep_cases (stereo : Bool) (d : Byte) (x : Session) :
    (stereo = false ∧ deltaStep stereo d x = deltaMono d x) ∨
      (stereo = true ∧ x.audioPos % 2 = 0 ∧ deltaStep stereo d x = deltaLeft d x) ∨
      (stereo = true ∧ x.audioPos % 2 ≠ 0 ∧ deltaStep stereo d x = deltaRight d x) := by
  cases stereo
  · exact .inl ⟨rfl, rfl⟩
  · by_cases h : x.audioPos % 2 = 0
    · exact .inr (.inl ⟨rfl, h, by simp [deltaStep, h]⟩)
    · exact .inr (.inr ⟨rfl, h, by simp [deltaStep, h]⟩)

/-! ## Slots -/

@[simp] theorem slots_setSlot_self (s : State) (h : Nat) (x : Session) (hlt : h < s.slots.length) :
    (s.setSlot h x).slots[h]? = some x := by simp [hlt]

@[simp] theorem slots_setSlot_other (s : State) (h k : Nat) (x : Session) (hne : h ≠ k) :
    (s.setSlot h x).slots[k]? = s.slots[k]? := by simp [List.getElem?_set_ne hne]

end Sys2Proof.Machine
end

