-- ==== Sys2Proof/Laws/Memory.lean ====
section
/-! SUPPORT. The laws of the byte memories and of the surfaces: read after write, and that every operation keeps the
canonical form. -/

namespace Sys2Proof.Machine

/-! ## Byte memories -/

@[simp] theorem Mem.read_write_self (m : Mem) (a : Nat) (b : Byte) : Mem.read (Mem.write m a b) a = some b := by
  induction m with
  | nil => simp [Mem.write, Mem.read]
  | cons c t ih =>
    simp only [Mem.write]
    split
    · simp [Mem.read]
    · split
      · simp [Mem.read]
      · rename_i h; simp [Mem.read, h, ih]

theorem Mem.read_write_other (m : Mem) {a k : Nat} (b : Byte) (hne : k ≠ a) :
    Mem.read (Mem.write m a b) k = Mem.read m k := by
  induction m with
  | nil => simp [Mem.write, Mem.read, hne]
  | cons c t ih =>
    simp only [Mem.write]
    split
    · simp [Mem.read, hne]
    · split
      · rename_i h; simp [Mem.read, ← h, hne]
      · simp [Mem.read, ih]

theorem Mem.mem_write {m : Mem} {a : Nat} {b : Byte} {c : Host.Cell} (h : c ∈ Mem.write m a b) :
    c = (a, b) ∨ c ∈ m := by
  induction m with
  | nil => simpa [Mem.write] using h
  | cons d t ih =>
    simp only [Mem.write] at h
    split at h
    · simpa using h
    · split at h
      · rcases List.mem_cons.1 h with h | h
        · exact .inl h
        · exact .inr (List.mem_cons_of_mem _ h)
      · rcases List.mem_cons.1 h with h | h
        · exact .inr (by simp [h])
        · rcases ih h with h | h
          · exact .inl h
          · exact .inr (List.mem_cons_of_mem _ h)

theorem Mem.write_wf {m : Mem} (hm : Mem.wf m) (a : Nat) (b : Byte) : Mem.wf (Mem.write m a b) := by
  induction m with
  | nil => simp [Mem.write, Mem.wf]
  | cons c t ih =>
    obtain ⟨hc, ht⟩ := List.pairwise_cons.1 hm
    simp only [Mem.write]
    split
    · rename_i hlt
      refine List.pairwise_cons.2 ⟨fun d hd => ?_, hm⟩
      rcases List.mem_cons.1 hd with rfl | hd
      · exact hlt
      · exact hlt.trans (hc d hd)
    · split
      · rename_i heq
        exact List.pairwise_cons.2 ⟨fun d hd => by simpa [heq] using hc d hd, ht⟩
      · refine List.pairwise_cons.2 ⟨fun d hd => ?_, ih ht⟩
        rcases Mem.mem_write hd with rfl | hd
        · simp only; omega
        · exact hc d hd

theorem Mem.writeAll_wf {m : Mem} (hm : Mem.wf m) (cs : List Host.Cell) : Mem.wf (Mem.writeAll m cs) := by
  induction cs generalizing m with
  | nil => exact hm
  | cons c t ih => exact ih (Mem.write_wf hm _ _)

theorem Mem.mem_writeAll {m : Mem} {cs : List Host.Cell} {c : Host.Cell} (h : c ∈ Mem.writeAll m cs) :
    c ∈ cs ∨ c ∈ m := by
  induction cs generalizing m with
  | nil => exact .inr h
  | cons d t ih =>
    rcases ih h with h | h
    · exact .inl (List.mem_cons_of_mem _ h)
    · rcases Mem.mem_write h with h | h
      · exact .inl (by simp [h])
      · exact .inr h

theorem Mem.read_writeAll_other {m : Mem} {cs : List Host.Cell} {a : Nat} (h : ∀ c ∈ cs, c.1 ≠ a) :
    Mem.read (Mem.writeAll m cs) a = Mem.read m a := by
  induction cs generalizing m with
  | nil => rfl
  | cons c t ih =>
    rw [Mem.writeAll, ih fun d hd => h d (List.mem_cons_of_mem _ hd),
      Mem.read_write_other _ _ (Ne.symm (h c (by simp)))]

/-- Where all writes to one address agree, that is what a read of it gives. -/
theorem Mem.read_writeAll_of_mem {m : Mem} {cs : List Host.Cell} {a : Nat} {b : Byte} (hmem : (a, b) ∈ cs)
    (hfun : ∀ c ∈ cs, c.1 = a → c.2 = b) : Mem.read (Mem.writeAll m cs) a = some b := by
  induction cs generalizing m with
  | nil => simp at hmem
  | cons c t ih =>
    by_cases ht : (a, b) ∈ t
    · exact ih ht fun d hd => hfun d (List.mem_cons_of_mem _ hd)
    · have hc : c = (a, b) := by
        rcases List.mem_cons.1 hmem with h | h
        · exact h.symm
        · exact absurd h ht
      subst hc
      rw [Mem.writeAll, Mem.read_writeAll_other, Mem.read_write_self]
      intro d hd heq
      exact ht (by have := hfun d (List.mem_cons_of_mem _ hd) heq; rwa [← heq, ← this])

theorem Mem.read_eq_none {m : Mem} {a : Nat} (h : ∀ c ∈ m, c.1 ≠ a) : Mem.read m a = none := by
  induction m with
  | nil => rfl
  | cons c t ih =>
    rw [Mem.read, if_neg (Ne.symm (h c (by simp))), ih fun d hd => h d (List.mem_cons_of_mem _ hd)]

theorem Mem.read_append (m k : Mem) (a : Nat) : Mem.read (m ++ k) a = (Mem.read m a).or (Mem.read k a) := by
  induction m with
  | nil => simp [Mem.read]
  | cons c t ih => by_cases h : a = c.1 <;> simp [Mem.read, h, ih]

theorem Mem.read_filter_ge (m : Mem) {n a : Nat} (h : n ≤ a) :
    Mem.read (m.filter fun c => decide (n ≤ c.1)) a = Mem.read m a := by
  induction m with
  | nil => rfl
  | cons c t ih =>
    by_cases hc : n ≤ c.1
    · simp only [List.filter_cons, hc, decide_true, if_true, Mem.read]; split <;> simp_all
    · simp only [List.filter_cons, hc, decide_false, Mem.read]
      rw [if_neg (by omega : ¬ a = c.1)]; simpa using ih

theorem Mem.read_map_range (f : Nat → Byte) (n a : Nat) :
    Mem.read ((List.range n).map fun i => (i, f i)) a = if a < n then some (f a) else none := by
  induction n with
  | zero => simp [Mem.read]
  | succ n ih =>
    rw [List.range_succ, List.map_append, Mem.read_append, ih]
    by_cases h : a < n
    · simp [h, Nat.lt_succ_of_lt h]
    · by_cases h' : a = n
      · subst h'; simp [Mem.read]
      · simp [Mem.read, h, h', show ¬ a < n + 1 by omega]

/-! ## Surfaces -/

@[simp] theorem Surface.read_unwritten (k a : Nat) : (Surface.unwritten k).read a = Config.unwrittenByte k a := rfl

theorem Surface.read_writeAll_other {f : Surface} {cs : List Host.Cell} {a : Nat} (h : ∀ c ∈ cs, c.1 ≠ a) :
    (f.writeAll cs).read a = f.read a := by
  simp [Surface.read, Surface.writeAll, Mem.read_writeAll_other h]

theorem Surface.read_writeAll_of_mem {f : Surface} {cs : List Host.Cell} {a : Nat} {b : Byte} (hmem : (a, b) ∈ cs)
    (hfun : ∀ c ∈ cs, c.1 = a → c.2 = b) : (f.writeAll cs).read a = b := by
  simp [Surface.read, Surface.writeAll, Mem.read_writeAll_of_mem hmem hfun]

/-- What the seeding copy leaves at each address (43_quadtree_video R196 (1)). -/
theorem Surface.read_copyArea (n : Nat) (src dst : Surface) (a : Nat) :
    (Surface.copyArea n src dst).read a = if a < n then src.read a else dst.read a := by
  have key : Mem.read (Surface.copyArea n src dst).cells a =
      if a < n then some (src.read a) else Mem.read dst.cells a := by
    simp only [Surface.copyArea, Mem.read_append]
    rw [Mem.read_map_range src.read]
    by_cases h : a < n
    · simp [h]
    · simp [h, Mem.read_filter_ge _ (Nat.le_of_not_lt h)]
  by_cases h : a < n
  · rw [if_pos h, Surface.read, key, if_pos h]
  · rw [if_neg h, Surface.read, key, if_neg h]; rfl

theorem Surface.copyArea_wf (n : Nat) (src : Surface) {dst : Surface} (h : Mem.wf dst.cells) :
    Mem.wf (Surface.copyArea n src dst).cells := by
  refine List.pairwise_append.2 ⟨?_, h.filter _, ?_⟩
  · rw [List.pairwise_map]; exact List.pairwise_lt_range
  · intro c hc d hd
    simp only [List.mem_map, List.mem_range] at hc
    obtain ⟨i, hi, rfl⟩ := hc
    have := (List.mem_filter.1 hd).2
    simp only [decide_eq_true_eq] at this
    simp only; omega

theorem Surface.mem_copyArea {n : Nat} {src dst : Surface} {c : Host.Cell}
    (h : c ∈ (Surface.copyArea n src dst).cells) : c.1 < n ∨ c ∈ dst.cells := by
  rcases List.mem_append.1 h with h | h
  · simp only [List.mem_map, List.mem_range] at h
    obtain ⟨i, hi, rfl⟩ := h
    exact .inl hi
  · exact .inr (List.mem_filter.1 h).1

theorem Surface.writeAll_wf {f : Surface} (h : Mem.wf f.cells) (cs : List Host.Cell) : Mem.wf (f.writeAll cs).cells :=
  Mem.writeAll_wf h cs

theorem Surface.unwritten_wf (k : Nat) : Mem.wf (Surface.unwritten k).cells := List.Pairwise.nil

/-- The memories of the reset state are in canonical form. -/
theorem reset_memories_wf : ∀ x ∈ State.reset.slots, Mem.wf x.fb0.cells ∧ Mem.wf x.fb1.cells := by
  intro x hx
  simp only [State.reset, List.mem_map] at hx
  obtain ⟨i, _, rfl⟩ := hx
  exact ⟨List.Pairwise.nil, List.Pairwise.nil⟩

/-! ## Blocks -/

/-- The addresses of a block: byte `i` of pixel (r, c) (43_quadtree_video R202). -/
theorem mem_blockCells {x : Session} {n col row : Nat} {byte : Nat → Nat → Nat → Byte} {c : Host.Cell} :
    c ∈ blockCells x n col row byte ↔
      ∃ r < n, ∃ cc < n, ∃ i < x.bpp.bytes, c = (pixelOff x (col + cc) (row + r) + i, byte r cc i) := by
  simp only [blockCells, List.mem_flatMap, List.mem_map, List.mem_range]
  constructor
  · rintro ⟨r, hr, cc, hcc, i, hi, rfl⟩; exact ⟨r, hr, cc, hcc, i, hi, rfl⟩
  · rintro ⟨r, hr, cc, hcc, i, hi, rfl⟩; exact ⟨r, hr, cc, hcc, i, hi, rfl⟩

theorem pixelOff_eq (x : Session) (col row : Nat) : pixelOff x col row = (row * x.w.toNat + col) * x.bpp.bytes := by
  simp only [pixelOff, Session.line]; ring

theorem bytes_pos (d : Depth) : 0 < d.bytes := by cases d <;> decide

/-- Two pixels of the W x H area share no byte (20_memory R68). -/
theorem pixelOff_inj {x : Session} {c1 r1 c2 r2 i1 i2 : Nat} (h1 : c1 < x.w.toNat) (h2 : c2 < x.w.toNat)
    (hi1 : i1 < x.bpp.bytes) (hi2 : i2 < x.bpp.bytes)
    (h : pixelOff x c1 r1 + i1 = pixelOff x c2 r2 + i2) : c1 = c2 ∧ r1 = r2 ∧ i1 = i2 := by
  simp only [pixelOff_eq] at h
  have hb := bytes_pos x.bpp
  have e1 : (r1 * x.w.toNat + c1) = (r2 * x.w.toNat + c2) := by
    have := congrArg (· / x.bpp.bytes) h
    simpa [Nat.add_div_of_dvd_right, Nat.mul_div_cancel _ hb, Nat.div_eq_of_lt hi1, Nat.div_eq_of_lt hi2,
      Nat.add_div_of_dvd_right (Dvd.intro_left _ rfl)] using this
  have e2 : i1 = i2 := by rw [e1] at h; omega
  have hw : 0 < x.w.toNat := by omega
  have e3 : r1 = r2 := by
    have := congrArg (· / x.w.toNat) e1
    simpa [Nat.add_div_of_dvd_right (Dvd.intro_left _ rfl), Nat.mul_div_cancel _ hw, Nat.div_eq_of_lt h1,
      Nat.div_eq_of_lt h2] using this
  refine ⟨?_, e3, e2⟩
  rw [e3] at e1; omega

/-- A pixel of the W x H area lies inside its first H*LINE bytes (20_memory R68). -/
theorem pixelOff_lt {x : Session} {c r i : Nat} (hc : c < x.w.toNat) (hr : r < x.h.toNat) (hi : i < x.bpp.bytes) :
    pixelOff x c r + i < x.area := by
  simp only [pixelOff_eq, Session.area, Session.line]
  have h1 : r * x.w.toNat + c + 1 ≤ x.h.toNat * x.w.toNat :=
    calc r * x.w.toNat + c + 1 ≤ r * x.w.toNat + x.w.toNat := by omega
      _ = (r + 1) * x.w.toNat := by ring
      _ ≤ x.h.toNat * x.w.toNat := Nat.mul_le_mul_right _ hr
  calc (r * x.w.toNat + c) * x.bpp.bytes + i < (r * x.w.toNat + c) * x.bpp.bytes + x.bpp.bytes := by omega
    _ = (r * x.w.toNat + c + 1) * x.bpp.bytes := by ring
    _ ≤ x.h.toNat * x.w.toNat * x.bpp.bytes := Nat.mul_le_mul_right _ h1
    _ = x.h.toNat * (x.w.toNat * x.bpp.bytes) := by ring

/-- All a block store can do: inside the area it replaces the writing bank, whose bytes in the block are `byte` and
whose other bytes are as before; outside it faults. -/
theorem storeBlock_cases (x : Session) (n col row : Nat) (byte : Nat → Nat → Nat → Byte) :
    (¬ (col + n ≤ x.w.toNat ∧ row + n ≤ x.h.toNat) ∧ storeBlock x n col row byte = .stuck .pixelOutsideFrame) ∨
      (col + n ≤ x.w.toNat ∧ row + n ≤ x.h.toNat ∧
        ∃ f : Surface, storeBlock x n col row byte = .ok (x.setBank x.wr f) ∧
          f = (x.bank x.wr).writeAll (blockCells x n col row byte) ∧
          (∀ r < n, ∀ c < n, ∀ i < x.bpp.bytes, f.read (pixelOff x (col + c) (row + r) + i) = byte r c i) ∧
          (∀ a, (∀ r < n, ∀ c < n, ∀ i < x.bpp.bytes, a ≠ pixelOff x (col + c) (row + r) + i) →
            f.read a = (x.bank x.wr).read a)) := by
  by_cases h : col + n ≤ x.w.toNat ∧ row + n ≤ x.h.toNat
  · refine .inr ⟨h.1, h.2, _, by simp [storeBlock, h], rfl, ?_, ?_⟩
    · intro r hr c hc i hi
      apply Surface.read_writeAll_of_mem (mem_blockCells.2 ⟨r, hr, c, hc, i, hi, rfl⟩)
      rintro d hd heq
      obtain ⟨r', hr', c', hc', i', hi', rfl⟩ := mem_blockCells.1 hd
      obtain ⟨e1, e2, e3⟩ := pixelOff_inj (x := x) (by omega) (by omega) hi' hi heq
      have e1 : c' = c := by omega
      have e2 : r' = r := by omega
      subst e1 e2 e3; rfl
    · intro a ha
      apply Surface.read_writeAll_other
      rintro d hd heq
      obtain ⟨r', hr', c', hc', i', hi', rfl⟩ := mem_blockCells.1 hd
      exact ha r' hr' c' hc' i' hi' heq.symm
  · exact .inl ⟨h, by simp [storeBlock, h]⟩

end Sys2Proof.Machine
end

