-- ==== Sys2Proof/Laws/Ops.lean ====
section
/-! SUPPORT. For each shared operation, once, all it can do. -/

namespace Sys2Proof.Machine

/-! ## Sequencing -/

@[simp] theorem andThen_ok {α β : Type} (a : α) (k : α → Res β) : (Res.ok a).andThen k = k a := rfl

@[simp] theorem andThen_raised {α β : Type} (e : ErrCode) (x : Session) (k : α → Res β) :
    (Res.raised e x : Res α).andThen k = .raised e x := rfl

@[simp] theorem andThen_stuck {α β : Type} (f : Fault) (k : α → Res β) :
    (Res.stuck f : Res α).andThen k = .stuck f := rfl

theorem andThen_eq_ok {α β : Type} {r : Res α} {k : α → Res β} {b : β} (h : r.andThen k = .ok b) :
    ∃ a, r = .ok a ∧ k a = .ok b := by
  cases r with
  | ok a => exact ⟨a, rfl, h⟩
  | raised e x => cases h
  | stuck f => cases h

theorem andThen_eq_raised {α β : Type} {r : Res α} {k : α → Res β} {e : ErrCode} {x : Session}
    (h : r.andThen k = .raised e x) : r = .raised e x ∨ ∃ a, r = .ok a ∧ k a = .raised e x := by
  cases r with
  | ok a => exact .inr ⟨a, rfl, h⟩
  | raised e' x' => left; cases h; rfl
  | stuck f => cases h

theorem andThen_eq_stuck {α β : Type} {r : Res α} {k : α → Res β} {f : Fault}
    (h : r.andThen k = .stuck f) : r = .stuck f ∨ ∃ a, r = .ok a ∧ k a = .stuck f := by
  cases r with
  | ok a => exact .inr ⟨a, rfl, h⟩
  | raised e x => cases h
  | stuck f' => left; cases h; rfl

/-- A committed operation goes on with the session stored, or takes the trap. -/
theorem commit_eq_next {s t : State} {h : Nat} {p : Phase} {r : Res Session} (hc : commit s h p r = .next t) :
    (∃ x, r = .ok x ∧ t = { s.setSlot h x with phase := p }) ∨
      ∃ e x, r = .raised e x ∧ t = raiseFatal s h e x := by
  cases r with
  | ok x => exact .inl ⟨x, rfl, by simpa [commit] using hc.symm⟩
  | raised e x => exact .inr ⟨e, x, rfl, by simpa [commit] using hc.symm⟩
  | stuck f => cases hc

@[simp] theorem commit_ok (s : State) (h : Nat) (p : Phase) (x : Session) :
    commit s h p (.ok x) = .next { s.setSlot h x with phase := p } := rfl

@[simp] theorem commit_raised (s : State) (h : Nat) (p : Phase) (e : ErrCode) (x : Session) :
    commit s h p (.raised e x) = .next (raiseFatal s h e x) := rfl

@[simp] theorem commit_stuck (s : State) (h : Nat) (p : Phase) (f : Fault) : commit s h p (.stuck f) = .fault f := rfl

@[simp] theorem endChunk_ok (s : State) (h : Nat) (x : Session) :
    endChunk s h (.ok x) =
      .next
        { s.setSlot h (retireChunk s.freeCount (advance x)) with
          phase := .loop h
          freeCount := s.freeCount + 1 } := rfl

@[simp] theorem endChunk_raised (s : State) (h : Nat) (e : ErrCode) (x : Session) :
    endChunk s h (.raised e x) = .next (raiseFatal s h e x) := rfl

@[simp] theorem endChunk_stuck (s : State) (h : Nat) (f : Fault) : endChunk s h (.stuck f) = .fault f := rfl

/-- A chunk ends with its session advanced and its registers retired, or takes the trap. -/
theorem endChunk_eq_next {s t : State} {h : Nat} {r : Res Session} (hc : endChunk s h r = .next t) :
    (∃ x, r = .ok x ∧
        t =
          { s.setSlot h (retireChunk s.freeCount (advance x)) with
            phase := .loop h
            freeCount := s.freeCount + 1 }) ∨
      ∃ e x, r = .raised e x ∧ t = raiseFatal s h e x := by
  cases r with
  | ok x => exact .inl ⟨x, rfl, by simpa using hc.symm⟩
  | raised e x => exact .inr ⟨e, x, rfl, by simpa using hc.symm⟩
  | stuck f => cases hc

@[simp] theorem retireChunk_bank (k : Nat) (x : Session) (b : BankId) : (retireChunk k x).bank b = x.bank b := by
  cases b <;> rfl

/-! ## The fetch -/

/-- A command on the port while another executes is refused (20_memory R73). -/
theorem fetch_busy {s : State} (hp : s.phase ≠ .idle) (hc : s.port ≠ none) :
    fetch s = .done (.refused .commandWhileBusy) := by simp [fetch, hp, hc]

/-- With no command on the port the fetch finds what the place holds. -/
theorem fetch_quiet {s : State} (hc : s.port = none) : fetch s = fetchPlace s := by simp [fetch, hc]

/-- When no command executes the fetch takes the one on the port. -/
theorem fetch_idle {s : State} (hp : s.phase = .idle) : fetch s = fetchCommand s := by simp [fetch, hp, fetchPlace]

/-- A step with a successor found the machine idle or the port empty. -/
theorem step_next_quiet {s t : State} (h : step s = .next t) : s.phase = .idle ∨ s.port = none := by
  by_cases hp : s.phase = .idle
  · exact .inl hp
  · by_cases hc : s.port = none
    · exact .inr hc
    · simp [step, fetch_busy hp hc] at h

/-! ## Frame references (70_reset R329) -/

/-- Through a good reference the host reads the bank's bytes and no other (44_scheduler R231). -/
theorem FrameRef.read_good {f : FrameRef} {s : State} {x : Session} (hx : s.slots[f.handle]? = some x)
    (hl : s.lease f.handle = f.lease) (o : Nat) :
    f.read s o = if o < f.height * f.line then some ((x.bank f.bank).read (f.base + o)) else none := by
  simp [FrameRef.read, hx, hl]

/-- Through a stale reference it reads free values. -/
theorem FrameRef.read_stale {f : FrameRef} {s : State} {x : Session} (hx : s.slots[f.handle]? = some x)
    (hl : s.lease f.handle ≠ f.lease) (o : Nat) :
    f.read s o = if o < f.height * f.line then some (Config.staleByte s f o) else none := by
  simp [FrameRef.read, hx, hl]

theorem lease_expireRefs {s : State} {h : Nat} (hl : h < s.leases.length) :
    (s.expireRefs h).lease h = s.lease h + 1 := by simp [State.lease, State.expireRefs, hl]

/-- A TICK or STOP of the slot makes the references handed out before it stale. -/
theorem expireRefs_ne_lease {s : State} {h : Nat} (hl : h < s.leases.length) :
    (s.expireRefs h).lease h ≠ s.lease h := by rw [lease_expireRefs hl]; omega

/-! ## The byte source -/

@[simp] theorem takeBytes_length (n : Nat) (l : List Byte) : (takeBytes n l).length = n := by
  induction n generalizing l with
  | zero => rfl
  | succ n ih => cases l <;> simp [takeBytes, ih]

theorem takeBytes_getElem? (n : Nat) (l : List Byte) {i : Nat} (h : i < n) :
    (takeBytes n l)[i]? = some (l.getD i 0) := by
  induction n generalizing l i with
  | zero => omega
  | succ n ih =>
    cases l with
    | nil =>
      cases i with
      | zero => simp [takeBytes]
      | succ i => simpa [takeBytes] using ih [] (i := i) (by omega)
    | cons b t =>
      cases i with
      | zero => simp [takeBytes]
      | succ i => simpa [takeBytes] using ih t (i := i) (by omega)

@[simp] theorem srcRead_length (src : Source) (off n : Nat) : (srcRead src off n).length = n := by simp [srcRead]

/-- `SrcRead(off, n)` returns the bytes SRC[off .. off+n-1] (20_memory R62). -/
theorem srcRead_getElem? (src : Source) (off n : Nat) {i : Nat} (h : i < n) :
    (srcRead src off n)[i]? = some (src.bytes.getD (off + i) 0) := by
  rw [srcRead, takeBytes_getElem? _ _ h]; simp [List.getD_eq_getElem?_getD]

theorem srcOpen_eq_some {s : State} {id : Nat} {src : Source} (h : srcOpen s id = some src) :
    src ∈ s.sources ∧ src.id = id := by
  refine ⟨List.mem_of_find?_eq_some h, ?_⟩
  have := List.find?_some h
  simpa using this

/-- Two lists of bytes with zeros after them are the same bytes. -/
theorem sameBytes_iff (l u : List Byte) : sameBytes l u = true ↔ ∀ i : Nat, l.getD i 0 = u.getD i 0 := by
  induction l generalizing u with
  | nil =>
    simp only [sameBytes, List.all_eq_true, decide_eq_true_eq]
    refine ⟨fun h i => ?_, fun h b hb => ?_⟩
    · cases hi : u[i]? with
      | none => simp [List.getD_eq_getElem?_getD, hi]
      | some b => simp [List.getD_eq_getElem?_getD, hi, h b (List.mem_of_getElem? hi)]
    · obtain ⟨i, hi⟩ := List.mem_iff_getElem?.mp hb
      have := h i
      simp [List.getD_eq_getElem?_getD, hi] at this
      exact this.symm
  | cons a t ih =>
    cases u with
    | nil =>
      simp only [sameBytes, Bool.and_eq_true, decide_eq_true_eq, ih]
      exact ⟨fun h i => by cases i with
        | zero => simpa using h.1
        | succ i => simpa using h.2 i, fun h => ⟨by simpa using h 0, fun i => by simpa using h (i + 1)⟩⟩
    | cons b u =>
      simp only [sameBytes, Bool.and_eq_true, decide_eq_true_eq, ih]
      exact ⟨fun h i => by cases i with
        | zero => simpa using h.1
        | succ i => simpa using h.2 i, fun h => ⟨by simpa using h 0, fun i => by simpa using h (i + 1)⟩⟩

@[simp] theorem sameBytes_self (l : List Byte) : sameBytes l l = true := (sameBytes_iff l l).2 fun _ => rfl

/-- The source of a session is the one its SRC_ID opens, with the length and the bytes START opened. -/
theorem sourceOf_eq_some {s : State} {x : Session} {src : Source} :
    sourceOf s x = some src ↔
      srcOpen s x.srcId = some src ∧ src.len = x.srcLen.toNat ∧ sameBytes src.content x.srcBytes = true := by
  simp only [sourceOf]
  cases h : srcOpen s x.srcId with
  | none => simp
  | some r =>
    simp only [Option.some.injEq]
    by_cases hr : r.len = x.srcLen.toNat ∧ sameBytes r.content x.srcBytes = true
    · simp only [if_pos hr, Option.some.injEq]
      exact ⟨fun e => ⟨e, e ▸ hr⟩, fun e => e.1⟩
    · simp only [if_neg hr, reduceCtorEq, false_iff]
      rintro ⟨rfl, e⟩
      exact hr e

/-- Finding the source of a session reads the sources, SRC_ID, SRC_LEN and the bytes START opened, and nothing else. -/
theorem sourceOf_congr {s t : State} {x y : Session} (hs : s.sources = t.sources) (hi : x.srcId = y.srcId)
    (hl : x.srcLen = y.srcLen) (hb : x.srcBytes = y.srcBytes) : sourceOf s x = sourceOf t y := by
  simp [sourceOf, srcOpen, hs, hi, hl, hb]

/-- A session whose source is another one, of another length or with another byte, has none (93_implementation_defined
U6). -/
theorem sourceOf_changed {s : State} {x : Session} {src : Source} (ho : srcOpen s x.srcId = some src)
    (hc : src.len ≠ x.srcLen.toNat ∨ ∃ i < src.len, src.bytes.getD i 0 ≠ x.srcBytes.getD i 0) : sourceOf s x = none := by
  cases h : sourceOf s x with
  | none => rfl
  | some r =>
    obtain ⟨h1, h2, h3⟩ := sourceOf_eq_some.mp h
    rw [ho] at h1
    cases h1
    rcases hc with hc | ⟨i, hi, hc⟩
    · exact absurd h2 hc
    · refine absurd ?_ hc
      rw [← (sameBytes_iff _ _).mp h3 i]
      simp [Source.content, List.getD_eq_getElem?_getD, List.getElem?_take_of_lt hi]

/-- The bytes the session reads are those START opened (20_memory R74). -/
theorem srcRead_opened {s : State} {x : Session} {src : Source} (h : sourceOf s x = some src) {off n i : Nat} (hi : i < n)
    (hf : off + n ≤ src.len) : (srcRead src off n)[i]? = some (x.srcBytes.getD (off + i) 0) := by
  obtain ⟨-, -, hb⟩ := sourceOf_eq_some.mp h
  rw [srcRead_getElem? src off n hi, ← (sameBytes_iff _ _).mp hb (off + i)]
  simp [Source.content, List.getD_eq_getElem?_getD, List.getElem?_take_of_lt (show off + i < src.len by omega)]

/-- A command on a session goes on, or its source changed. -/
theorem onSession_ok {s : State} {x : Session} {src : Source} (h : sourceOf s x = some src)
    (o : Host.Outcome State Fault Refusal) : onSession s x o = o := by simp [onSession, h]

theorem onSession_changed {s : State} {x : Session} (h : sourceOf s x = none) (o : Host.Outcome State Fault Refusal) :
    onSession s x o = .refused .sourceChanged := by simp [onSession, h]

theorem onSession_eq_next {s t : State} {x : Session} {o : Host.Outcome State Fault Refusal}
    (h : onSession s x o = .next t) : (∃ src, sourceOf s x = some src) ∧ o = .next t := by
  cases hs : sourceOf s x with
  | none => rw [onSession_changed hs] at h; cases h
  | some src => rw [onSession_ok hs] at h; exact ⟨⟨src, rfl⟩, h⟩

/-- The slot of a phase is worked on with its source. -/
theorem withSlot_ok {s : State} {h : Nat} {x : Session} {src : Source} (hx : s.slots[h]? = some x)
    (hs : sourceOf s x = some src) (k : Source → Session → Fetched) : withSlot s h k = k src x := by
  simp [withSlot, hx, hs]

/-- A step for a session whose source changed is refused (00_scope R9 (c), 93_implementation_defined U6). -/
theorem withSlot_changed {s : State} {h : Nat} {x : Session} (hx : s.slots[h]? = some x) (hs : sourceOf s x = none)
    (k : Source → Session → Fetched) : withSlot s h k = .done (.refused .sourceChanged) := by
  simp [withSlot, hx, hs]

/-! ## The header parse and the chunk fetch -/

theorem openHeader_cases (x : Session) :
    (x.srcLen.toNat < 16 ∧ openHeader x = .raised .truncated { x with offset := 0 }) ∨
      (16 ≤ x.srcLen.toNat ∧ openHeader x = .ok { x with offset := 0, inmem := decide (x.rawn ≠ 0) }) := by
  by_cases h : x.srcLen.toNat < 16
  · exact .inl ⟨h, by simp [openHeader, Config.fileHdr, h]⟩
  · exact .inr ⟨by omega, by simp [openHeader, Config.fileHdr, h]⟩

theorem loadHeader_cases (p : Params) (magic fps : BitVec 16) (x : Session) :
    (magic ≠ p.magic ∧ loadHeader p magic fps x = .raised .invalidMagic x) ∨
      (magic = p.magic ∧ loadHeader p magic fps x = .ok { x with fps := fpsOf fps, offset := 8 }) := by
  by_cases h : magic = p.magic
  · exact .inr ⟨h, by simp [loadHeader, h]⟩
  · exact .inl ⟨h, by simp [loadHeader, h]⟩

/-- The chunk registers as the fetch of the header writes them (40_chunk_reader R130). -/
def latched (tag : BitVec 16) (hd : ChunkHdr) (x : Session) : Session :=
  { x with cType := tag, cLen := hd.len, cAux0 := hd.aux0, cAux1 := hd.aux1, inmem := decide (x.rawn ≠ 0) }

theorem openChunk_cases (tag : BitVec 16) (hd : ChunkHdr) (x : Session) :
    (x.remaining < 8 ∧ openChunk tag hd x = .raised .truncated x) ∨
      (8 ≤ x.remaining ∧ 65536 < hd.len.toNat ∧ openChunk tag hd x = .raised .oversize (latched tag hd x)) ∨
      (8 ≤ x.remaining ∧ hd.len.toNat ≤ 65536 ∧ x.remaining < 8 + hd.len.toNat ∧
        openChunk tag hd x = .raised .truncated (latched tag hd x)) ∨
      (hd.len.toNat ≤ 65536 ∧ 8 + hd.len.toNat ≤ x.remaining ∧ openChunk tag hd x = .ok (latched tag hd x)) := by
  by_cases h1 : x.remaining < 8
  · exact .inl ⟨h1, by simp [openChunk, Config.chunkHdr, h1]⟩
  · by_cases h2 : 65536 < hd.len.toNat
    · exact .inr (.inl ⟨by omega, h2, by simp [openChunk, Config.chunkHdr, Config.maxChunk, h1, h2, latched]⟩)
    · by_cases h3 : x.remaining - 8 < hd.len.toNat
      · exact .inr (.inr (.inl ⟨by omega, by omega, by omega,
          by simp [openChunk, Config.chunkHdr, Config.maxChunk, h1, h2, h3, latched]⟩))
      · exact .inr (.inr (.inr ⟨by omega, by omega,
          by simp [openChunk, Config.chunkHdr, Config.maxChunk, h1, h2, h3, latched]⟩))

/-- The prologue of a chunk runs: the chunk's rule works on the latched registers and the loaded payload. -/
theorem atChunk_eq {s : State} {h : Nat} {x : Session} {src : Source} (tag : BitVec 16) (hd : ChunkHdr)
    (k : Nat → Session → Host.Outcome State Fault Refusal) (hp : s.phase = .fetch h) (hx : s.slots[h]? = some x)
    (hl : hd.len.toNat ≤ 65536) (hf : 8 + hd.len.toNat ≤ x.remaining) (hs : sourceOf s x = some src) :
    atChunk s tag hd k = k h (loadPayload src (latched tag hd x)) := by
  have ho : openChunk tag hd x = .ok (latched tag hd x) := by
    rcases openChunk_cases tag hd x with h1 | h1 | h1 | h1
    · omega
    · omega
    · omega
    · exact h1.2.2
  simp [atChunk, hp, hx, ho, hs]

/-- All a chunk can do: its fetch fails, or its own rule runs. -/
theorem atChunk_cases {s t : State} {tag : BitVec 16} {hd : ChunkHdr}
    {k : Nat → Session → Host.Outcome State Fault Refusal} (ha : atChunk s tag hd k = .next t) :
    ∃ h x, s.phase = .fetch h ∧ s.slots[h]? = some x ∧
      ((∃ e x1, (x1 = x ∨ x1 = latched tag hd x) ∧ openChunk tag hd x = .raised e x1 ∧ t = raiseFatal s h e x1) ∨
        ∃ src, hd.len.toNat ≤ 65536 ∧ 8 + hd.len.toNat ≤ x.remaining ∧ sourceOf s x = some src ∧
          k h (loadPayload src (latched tag hd x)) = .next t) := by
  simp only [atChunk] at ha
  split at ha
  case h_2 => cases ha
  rename_i h hp
  split at ha
  · cases ha
  rename_i x hx
  refine ⟨h, x, hp, hx, ?_⟩
  rcases openChunk_cases tag hd x with h1 | h1 | h1 | h1
  · rw [h1.2] at ha
    exact .inl ⟨_, _, .inl rfl, h1.2, by simpa using ha.symm⟩
  · rw [h1.2.2] at ha
    exact .inl ⟨_, _, .inr rfl, h1.2.2, by simpa using ha.symm⟩
  · rw [h1.2.2.2] at ha
    exact .inl ⟨_, _, .inr rfl, h1.2.2.2, by simpa using ha.symm⟩
  · rw [h1.2.2] at ha
    simp only at ha
    split at ha
    · cases ha
    rename_i src hsrc
    exact .inr ⟨src, h1.1, h1.2.1, hsrc, ha⟩

/-! ## Opcodes and operands -/

theorem nextOpcode_cases (x : Session) :
    (x.opn ≠ 0 ∧ nextOpcode x = .ok (takeOpcode x)) ∨
      (x.opn = 0 ∧ x.cLen.toNat < x.pptr.toNat + 2 ∧ nextOpcode x = .raised .truncated x) ∨
      (x.opn = 0 ∧ x.pptr.toNat + 2 ≤ x.cLen.toNat ∧
        ((∃ b0 b1, x.payload[x.pptr.toNat]? = some b0 ∧ x.payload[x.pptr.toNat + 1]? = some b1 ∧
            nextOpcode x =
              .ok (takeOpcode { x with opw := le16 b0 b1, pptr := BitVec.ofNat 17 (x.pptr.toNat + 2), opn := 8 })) ∨
          (x.payload.length < x.pptr.toNat + 2 ∧ nextOpcode x = .stuck .noEntry))) := by
  by_cases h0 : x.opn = 0
  · by_cases h1 : x.cLen.toNat < x.pptr.toNat + 2
    · exact .inr (.inl ⟨h0, h1, by simp [nextOpcode, h0, h1]⟩)
    · refine .inr (.inr ⟨h0, by omega, ?_⟩)
      by_cases h2 : x.payload.length < x.pptr.toNat + 2
      · refine .inr ⟨h2, ?_⟩
        have : x.payload[x.pptr.toNat + 1]? = none := List.getElem?_eq_none (by omega)
        simp [nextOpcode, h0, h1, this]
      · refine .inl ⟨x.payload[x.pptr.toNat]'(by omega), x.payload[x.pptr.toNat + 1]'(by omega),
          List.getElem?_eq_getElem _, List.getElem?_eq_getElem _, ?_⟩
        simp [nextOpcode, h0, h1, show x.pptr.toNat < x.payload.length by omega,
          show x.pptr.toNat + 1 < x.payload.length by omega]
  · exact .inl ⟨h0, by rw [nextOpcode, if_neg h0]⟩

theorem nextByte_cases (x : Session) :
    (x.cLen.toNat < x.pptr.toNat + 1 ∧ nextByte x = .raised .truncated x) ∨
      (x.pptr.toNat + 1 ≤ x.cLen.toNat ∧
        ((∃ b, x.payload[x.pptr.toNat]? = some b ∧
            nextByte x = .ok (b, { x with pptr := BitVec.ofNat 17 (x.pptr.toNat + 1) })) ∨
          (x.payload[x.pptr.toNat]? = none ∧ nextByte x = .stuck .noEntry))) := by
  by_cases h1 : x.cLen.toNat < x.pptr.toNat + 1
  · exact .inl ⟨h1, by simp [nextByte, h1]⟩
  · refine .inr ⟨by omega, ?_⟩
    cases h2 : x.payload[x.pptr.toNat]? with
    | none => exact .inr ⟨rfl, by simp [nextByte, h1, h2]⟩
    | some b => exact .inl ⟨b, rfl, by simp [nextByte, h1, h2]⟩

theorem tileLookup_cases (x : Session) (cb : List Tile) (n : BitVec 9) (k : Byte) :
    (n.toNat ≤ k.toNat ∧ tileLookup x cb n k = .raised .indexOutOfRange x) ∨
      (k.toNat < n.toNat ∧
        ((∃ t, cb[k.toNat]? = some t ∧ tileLookup x cb n k = .ok t) ∨
          (cb[k.toNat]? = none ∧ tileLookup x cb n k = .stuck .noEntry))) := by
  by_cases h1 : n.toNat ≤ k.toNat
  · exact .inl ⟨h1, by simp [tileLookup, h1]⟩
  · refine .inr ⟨by omega, ?_⟩
    cases h2 : cb[k.toNat]? with
    | none => exact .inr ⟨rfl, by simp [tileLookup, h1, h2]⟩
    | some b => exact .inl ⟨b, rfl, by simp [tileLookup, h1, h2]⟩

theorem tableEntry_cases (x : Session) (i : Nat) :
    (∃ e, x.addrTable[i]? = some e ∧ tableEntry x i = .ok e) ∨
      (x.addrTable[i]? = none ∧ tableEntry x i = .stuck .noEntry) := by
  cases h : x.addrTable[i]? with
  | none => exact .inr ⟨rfl, by simp [tableEntry, h]⟩
  | some e => exact .inl ⟨e, rfl, by simp [tableEntry, h]⟩

theorem motionLookup_cases (x : Session) (b : Byte) :
    (∃ m, x.mcomp[b.toNat]? = some m ∧ motionLookup x b = .ok m) ∨
      (x.mcomp[b.toNat]? = none ∧ motionLookup x b = .stuck .noEntry) := by
  cases h : x.mcomp[b.toNat]? with
  | none => exact .inr ⟨rfl, by simp [motionLookup, h]⟩
  | some e => exact .inl ⟨e, rfl, by simp [motionLookup, h]⟩

/-- All a motion copy can do (43_quadtree_video R194). -/
theorem motionFrom_cases (x : Session) (n col row : Nat) (m : Int × Int) :
    ((col + m.1 < 0 ∨ x.w.toNat < col + m.1 + n ∨ row + m.2 < 0 ∨ x.h.toNat < row + m.2 + n) ∧
        motionFrom x n col row m = .raised .indexOutOfRange x) ∨
      (∃ sx sy : Nat, (sx : Int) = col + m.1 ∧ (sy : Int) = row + m.2 ∧ sx + n ≤ x.w.toNat ∧ sy + n ≤ x.h.toNat ∧
        motionFrom x n col row m =
          storeBlock x n col row fun r c i => (x.bank x.wr.other).read (pixelOff x (sx + c) (sy + r) + i)) := by
  by_cases h : (col : Int) + m.1 < 0 ∨ (x.w.toNat : Int) < col + m.1 + n ∨ (row : Int) + m.2 < 0 ∨
      (x.h.toNat : Int) < row + m.2 + n
  · exact .inl ⟨h, by simp only [motionFrom]; rw [if_pos h]⟩
  · refine .inr ⟨(col + m.1).toNat, (row + m.2).toNat, by omega, by omega, by omega, by omega, ?_⟩
    simp only [motionFrom]; rw [if_neg h]

/-! ## The order inside a macroblock -/

/-- The blocks of a macroblock quartered `n` times are all the 2^n x 2^n blocks of it (43_quadtree_video R180). -/
theorem mem_zOrder {n a b : Nat} : (a, b) ∈ zOrder n ↔ a < 2 ^ n ∧ b < 2 ^ n := by
  induction n generalizing a b with
  | zero => simp [zOrder]
  | succ n ih =>
    simp only [zOrder, List.mem_flatMap, List.mem_range, List.mem_map, Prod.exists, Prod.mk.injEq, ih, pow_succ]
    constructor
    · rintro ⟨q, hq, c, d, ⟨hc, hd⟩, rfl, rfl⟩
      have hm : q % 2 = 0 ∨ q % 2 = 1 := by omega
      have hd' : q / 2 = 0 ∨ q / 2 = 1 := by omega
      rcases hm with h | h <;> rcases hd' with h' | h' <;> rw [h, h'] <;> constructor <;> omega
    · rintro ⟨ha, hb⟩
      refine ⟨2 * (b / 2 ^ n) + a / 2 ^ n, ?_, a % 2 ^ n, b % 2 ^ n, ⟨Nat.mod_lt _ (by positivity), Nat.mod_lt _ (by positivity)⟩,
        ?_, ?_⟩
      all_goals
        have h1 : a / 2 ^ n < 2 := Nat.div_lt_of_lt_mul (by omega)
        have h2 : b / 2 ^ n < 2 := Nat.div_lt_of_lt_mul (by omega)
        have ea := Nat.div_add_mod a (2 ^ n)
        have eb := Nat.div_add_mod b (2 ^ n)
        generalize a / 2 ^ n = c at *
        generalize b / 2 ^ n = d at *
      · omega
      · rwa [show (2 * d + c) % 2 = c by omega]
      · rwa [show (2 * d + c) / 2 = d by omega]

theorem zOrder_length (n : Nat) : (zOrder n).length = 4 ^ n := by
  induction n with
  | zero => rfl
  | succ n ih => simp [zOrder, ih, pow_succ]; omega

/-- How often a macroblock of edge 8 * 2^n is quartered. -/
theorem mbLevels_eq {p : Params} {n : Nat} (h : p.mb = 8 * 2 ^ n) : p.mbLevels = n := by
  simp [Params.mbLevels, h, Nat.log2_two_pow]

/-! ## Tiles -/

theorem px_make {n r c : Nat} (f : Nat → Nat → Pixel) (hr : r < n) (hc : c < n) : (Tile.make n f).px r c = f r c := by
  simp [Tile.make, Tile.px, List.getD_eq_getElem?_getD, hr, hc]

/-! ## The catch-up loop -/

/-- All the head of the catch-up loop can do (44_scheduler R222, R224, R225). -/
theorem loopHead_cases (s : State) (h : Nat) (x : Session) :
    (¬ (x.status = .play ∧ x.decoded.toNat < x.target.toNat) ∧ loopHead s h x = s.answer (.status x.status)) ∨
      (x.status = .play ∧ x.decoded.toNat < x.target.toNat ∧
        ((x.offset.toNat < x.srcLen.toNat ∧ loopHead s h x = { s with phase := .fetch h }) ∨
          (x.srcLen.toNat ≤ x.offset.toNat ∧ loopHead s h x = endOfData s h x))) := by
  by_cases h1 : x.status = .play ∧ x.decoded.toNat < x.target.toNat
  · refine .inr ⟨h1.1, h1.2, ?_⟩
    by_cases h2 : x.srcLen.toNat ≤ x.offset.toNat
    · exact .inr ⟨h2, by simp [loopHead, h1, h2]⟩
    · exact .inl ⟨by omega, by simp [loopHead, h1, h2]⟩
  · exact .inl ⟨h1, by rw [loopHead, if_neg h1]⟩

/-- All the end of data can do (44_scheduler R225). -/
theorem endOfData_cases (s : State) (h : Nat) (x : Session) :
    (x.holdFlag = true ∧ endOfData s h x = { s.setSlot h { x with status := .idle } with phase := .loop h }) ∨
      (x.holdFlag = false ∧ x.loopFlag = true ∧ endOfData s h x = { s with phase := .header h true }) ∨
      (x.holdFlag = false ∧ x.loopFlag = false ∧
        endOfData s h x =
          { s.setSlot h
              { x with
                status := .endOfStream
                hasFrame := false
                fb0 := .unwritten s.freeCount
                fb1 := .unwritten (s.freeCount + 1) } with
            phase := .loop h
            freeCount := s.freeCount + 2 }) := by
  cases h1 : x.holdFlag <;> cases h2 : x.loopFlag <;> simp [endOfData, h1, h2]

/-! ## Frame completion -/

/-- What frame completion leaves in the banks: the writing bank as it is; the other bank its copy in the active area
when FIRST was set (43_quadtree_video R196). -/
theorem frameComplete_banks (x : Session) :
    (frameComplete x).bank x.wr = x.bank x.wr ∧
      (frameComplete x).bank x.wr.other =
        if x.first then Surface.copyArea x.area (x.bank x.wr) (x.bank x.wr.other) else x.bank x.wr.other := by
  cases hf : x.first <;> cases hw : x.wr <;> simp [frameComplete, hf, hw, Session.setBank, Session.bank, BankId.other]

end Sys2Proof.Machine
end

