-- ==== Sys2Proof/Laws/PerInstr.lean ====
section
/-! SUPPORT. The statement made for every instruction: the format of its encoding. -/

namespace Sys2Proof.Laws

/-- The formats of 30_encoding R90, the two levels of the video opcodes apart. -/
inductive Format where
  | fileHeader
  | chunkHeader
  | opcode8
  | opcode4
  | audioByte
  | command
  deriving DecidableEq, Repr

/-- The format of an encoded object. -/
def formatOf : Encoded → Format
  | .fileHdr _ => .fileHeader
  | .chunkHdr _ => .chunkHeader
  | .qop8 _ => .opcode8
  | .qop4 _ => .opcode4
  | .delta _ => .audioByte
  | .hostCmd _ => .command

/-- The format 30_encoding R90 gives an instruction. -/
def formatWanted : Instr → Format
  | .filehdr _ _ _ => .fileHeader
  | .info _ => .chunkHeader
  | .codebook _ => .chunkHeader
  | .video _ => .chunkHeader
  | .hang _ => .chunkHeader
  | .audioMono _ => .chunkHeader
  | .audioStereo _ => .chunkHeader
  | .packet _ => .chunkHeader
  | .skip8 => .opcode8
  | .mot8 => .opcode8
  | .vq8 => .opcode8
  | .sub8 => .opcode8
  | .skip4 => .opcode4
  | .mot4 => .opcode4
  | .vq4 => .opcode4
  | .quad2 => .opcode4
  | .delta _ => .audioByte
  | .start _ _ _ _ _ _ _ => .command
  | .tick _ _ => .command
  | .stop _ => .command
  | .getframe _ => .command
  | .resume _ => .command

/-- An object has the eight bytes of a header, if it is one (30_encoding R91, R92). -/
def headerLength : Encoded → Prop
  | .fileHdr bytes => bytes.length = 8
  | .chunkHdr bytes => bytes.length = 8
  | .qop8 _ => True
  | .qop4 _ => True
  | .delta _ => True
  | .hostCmd _ => True

/-- The encoding of the instruction is in its format, whatever the parameters, and a header has eight bytes. -/
def EncodedFormat.Statement (i : Instr) : Prop :=
  ∀ p : Params, formatOf (encode p i) = formatWanted i ∧ headerLength (encode p i)

theorem EncodedFormat.filehdr (magic : BitVec 16) (unused : BitVec 32) (fps : BitVec 16) :
    EncodedFormat.Statement (.filehdr magic unused fps) := fun _ => ⟨rfl, rfl⟩
theorem EncodedFormat.info (hd : ChunkHdr) : EncodedFormat.Statement (.info hd) := fun _ => ⟨rfl, rfl⟩
theorem EncodedFormat.codebook (hd : ChunkHdr) : EncodedFormat.Statement (.codebook hd) := fun _ => ⟨rfl, rfl⟩
theorem EncodedFormat.video (hd : ChunkHdr) : EncodedFormat.Statement (.video hd) := fun _ => ⟨rfl, rfl⟩
theorem EncodedFormat.hang (hd : ChunkHdr) : EncodedFormat.Statement (.hang hd) := fun _ => ⟨rfl, rfl⟩
theorem EncodedFormat.audioMono (hd : ChunkHdr) : EncodedFormat.Statement (.audioMono hd) := fun _ => ⟨rfl, rfl⟩
theorem EncodedFormat.audioStereo (hd : ChunkHdr) : EncodedFormat.Statement (.audioStereo hd) := fun _ => ⟨rfl, rfl⟩
theorem EncodedFormat.packet (hd : ChunkHdr) : EncodedFormat.Statement (.packet hd) := fun _ => ⟨rfl, rfl⟩
theorem EncodedFormat.skip8 : EncodedFormat.Statement .skip8 := fun _ => ⟨rfl, trivial⟩
theorem EncodedFormat.mot8 : EncodedFormat.Statement .mot8 := fun _ => ⟨rfl, trivial⟩
theorem EncodedFormat.vq8 : EncodedFormat.Statement .vq8 := fun _ => ⟨rfl, trivial⟩
theorem EncodedFormat.sub8 : EncodedFormat.Statement .sub8 := fun _ => ⟨rfl, trivial⟩
theorem EncodedFormat.skip4 : EncodedFormat.Statement .skip4 := fun _ => ⟨rfl, trivial⟩
theorem EncodedFormat.mot4 : EncodedFormat.Statement .mot4 := fun _ => ⟨rfl, trivial⟩
theorem EncodedFormat.vq4 : EncodedFormat.Statement .vq4 := fun _ => ⟨rfl, trivial⟩
theorem EncodedFormat.quad2 : EncodedFormat.Statement .quad2 := fun _ => ⟨rfl, trivial⟩
theorem EncodedFormat.delta (d : Byte) : EncodedFormat.Statement (.delta d) := fun _ => ⟨rfl, trivial⟩
theorem EncodedFormat.start (srcId : Nat) (x y w h : BitVec 32) (flags : BitVec 4) (now : BitVec 48) :
    EncodedFormat.Statement (.start srcId x y w h flags now) := fun _ => ⟨rfl, trivial⟩
theorem EncodedFormat.tick (handle : Nat) (now : BitVec 48) : EncodedFormat.Statement (.tick handle now) :=
  fun _ => ⟨rfl, trivial⟩
theorem EncodedFormat.stop (handle : Nat) : EncodedFormat.Statement (.stop handle) := fun _ => ⟨rfl, trivial⟩
theorem EncodedFormat.getframe (handle : Nat) : EncodedFormat.Statement (.getframe handle) := fun _ => ⟨rfl, trivial⟩
theorem EncodedFormat.resume (handle : Nat) : EncodedFormat.Statement (.resume handle) := fun _ => ⟨rfl, trivial⟩

end Sys2Proof.Laws
end

