-- ==== Sys2Proof/Tests/Slice0.lean ====
section
/-! SUPPORT. Tests on small states, and for every statement with hypotheses a witness that they can hold. Expected values
are those of spec/95_test_vectors.md, named by their numbers, or are written out from the tables of spec/30_encoding.md. -/

namespace Sys2Proof.Tests

open Sys2Proof Sys2Proof.Machine

/-! ## Small states -/

/-- The parameters of 95_test_vectors with one slot. -/
def one : Params := { Params.reference with nSess := 1 }

/-- A session in Play at OFFSET `off` of a source of `len` bytes, with one frame due (10 frames a second, 100 ms). -/
def player (off len : Nat) : Session :=
  { Session.hardwareReset 0 with
    inUse := true
    status := .play
    srcLen := BitVec.ofNat 32 len
    offset := BitVec.ofNat 32 off
    fps := 10
    nowL := 100
    target := 1 }

/-- The session `x` with the source bytes `bytes`, then zeros. -/
def fed (bytes : List Byte) (x : Session) : Session := { x with srcBytes := bytes }

/-- A machine of one slot that holds `x`, in phase `p`; source 0 has the length `x` opened and the bytes `bytes`, then
zeros. -/
def stand (p : Phase) (x : Session) (bytes : List Byte) : State :=
  { cfg := one
    sources := [⟨0, x.srcLen.toNat, bytes⟩]
    slots := [fed bytes x]
    phase := p
    port := none
    result := none
    leases := [0]
    freeCount := 2 }

/-- At the fetch of a chunk at OFFSET 8 with the payload `payload`, the last of the source. -/
def chunkAt (payload : List Byte) : State :=
  stand (.fetch 0) (player 8 (16 + payload.length)) (List.replicate 16 0 ++ payload)

/-- The session of that machine. -/
def reader (payload : List Byte) : Session :=
  fed (List.replicate 16 0 ++ payload) (player 8 (16 + payload.length))

/-- The header of a chunk. -/
def header (len : Nat) (aux0 aux1 : Byte) : ChunkHdr := ⟨BitVec.ofNat 24 len, 0, aux0, aux1⟩

/-- The payload of V-CB-5. -/
def codebook5 : List Byte :=
  [0x10, 0x11, 0x12, 0x13, 0x80, 0x80, 0x20, 0x21, 0x22, 0x23, 0x80, 0x80, 0x30, 0x31, 0x32, 0x33, 0x80, 0x80, 0x40, 0x41,
    0x42, 0x43, 0x80, 0x80, 0x00, 0x01, 0x02, 0x03]

/-- The 2x2 tile with the pixels b, b+1 / b+2, b+3. -/
def small (b : Nat) : Tile :=
  [[BitVec.ofNat 32 b, BitVec.ofNat 32 (b + 1)], [BitVec.ofNat 32 (b + 2), BitVec.ofNat 32 (b + 3)]]

/-- The 4x4 tile of V-CB-5. -/
def tile5 : Tile :=
  [[0x10, 0x11, 0x20, 0x21], [0x12, 0x13, 0x22, 0x23], [0x30, 0x31, 0x40, 0x41], [0x32, 0x33, 0x42, 0x43]]

/-- A session inside the VIDEO chunk of a 16 x 16 frame at node `leaf`, with the dictionaries of V-CB-5, the motion bases 0
and the payload `payload` read up to PPTR `pptr`. -/
def painter (payload : List Byte) (pptr leaf : Nat) : Session :=
  { player 8 (16 + payload.length) with
    w := 16
    h := 16
    addrTable := genTable one 16 16
    atN := 4
    atValid := true
    mcomp := motionTable 0 0
    cLen := BitVec.ofNat 24 payload.length
    payload := payload
    pptr := BitVec.ofNat 17 pptr
    leaf := leaf
    n2 := 4
    n4 := 1
    cb2 := [small 0x10, small 0x20, small 0x30, small 0x40]
    cb4 := [tile5]
    cb8 := [tile8 tile5] }

/-- A machine at node `leaf` of that frame. -/
def nodeAt (payload : List Byte) (pptr leaf : Nat) : State := stand (.video 0 .node) (painter payload pptr leaf) []

/-- A machine at child `j` of node `leaf` of that frame. -/
def childAt (payload : List Byte) (pptr leaf : Nat) (j : Fin 4) : State :=
  stand (.video 0 (.child j)) (painter payload pptr leaf) []

/-- A session inside an audio chunk with the accumulators `l` and `r`, before its payload `payload`. -/
def speaker (payload : List Byte) (l r : BitVec 16) : Session :=
  { player 8 (16 + payload.length) with
    cLen := BitVec.ofNat 24 payload.length
    payload := payload
    accL := l
    accR := r }

/-- The session of slot 0 after a step, if the step has a successor. -/
def slot0 (o : Host.Outcome State Fault Refusal) : Option Session :=
  match o with
  | .next t => t.slots[0]?
  | .fault _ => none
  | .refused _ => none

/-- The answer after a step. -/
def answer (o : Host.Outcome State Fault Refusal) : Option Result :=
  match o with
  | .next t => t.result
  | .fault _ => none
  | .refused _ => none

/-- `n` bytes of bank 0 of slot 0 from offset `a`, after a step. -/
def bank0Bytes (o : Host.Outcome State Fault Refusal) (a n : Nat) : Option (List Byte) :=
  (slot0 o).map fun x => (List.range n).map fun i => x.fb0.read (a + i)

/-- STATUS, ERR and ERR_OFF of slot 0 after a step. -/
def trap0 (o : Host.Outcome State Fault Refusal) : Option (Status × ErrCode × Nat) :=
  (slot0 o).map fun x => (x.status, x.err, x.errOff.toNat)

/-! ## Well-formedness: each check refuses -/

theorem test_wf_refuses_other_magic : Instr.wf Params.reference (.filehdr 0x1085 0 10) = false := by decide
theorem test_wf_refuses_long_info : Instr.wf Params.reference (.info (header 65537 0 0)) = false := by decide
theorem test_wf_refuses_long_codebook : Instr.wf Params.reference (.codebook (header 65537 0 0)) = false := by decide
theorem test_wf_refuses_long_video : Instr.wf Params.reference (.video (header 65537 0 0)) = false := by decide
theorem test_wf_refuses_long_hang : Instr.wf Params.reference (.hang (header 65537 0 0)) = false := by decide
theorem test_wf_refuses_long_mono : Instr.wf Params.reference (.audioMono (header 65537 0 0)) = false := by decide
theorem test_wf_refuses_long_stereo : Instr.wf Params.reference (.audioStereo (header 65537 0 0)) = false := by decide
theorem test_wf_refuses_long_packet : Instr.wf Params.reference (.packet (header 65537 0 0)) = false := by decide
theorem test_wf_accepts_longest : Instr.wf Params.reference (.hang (header 65536 0 0)) = true := by decide
theorem test_params_reference_wf : Params.reference.wf = true := by decide

/-! ## Decoding: one word written out from the spec for every constructor -/

theorem test_decode_filehdr :
    decode Params.reference (.fileHdr [0x84, 0x10, 0x12, 0x34, 0x56, 0x78, 0xFF, 0xFF]) =
      .ok (.filehdr 0x1084 0x78563412 65535) := by decide
theorem test_decode_info :
    decode Params.reference (.chunkHdr [0x01, 0x10, 0x04, 0x00, 0x00, 0x00, 0x00, 0x00]) = .ok (.info ⟨4, 0, 0, 0⟩) := by
  decide
theorem test_decode_codebook :
    decode Params.reference (.chunkHdr [0x02, 0x10, 0x1C, 0x00, 0x00, 0x00, 0x01, 0x04]) =
      .ok (.codebook ⟨28, 0, 1, 4⟩) := by decide
theorem test_decode_video :
    decode Params.reference (.chunkHdr [0x11, 0x10, 0x04, 0x00, 0x00, 0x00, 0xFF, 0x01]) =
      .ok (.video ⟨4, 0, 0xFF, 0x01⟩) := by decide
theorem test_decode_hang :
    decode Params.reference (.chunkHdr [0x13, 0x10, 0x01, 0x00, 0x01, 0xAB, 0x00, 0x00]) =
      .ok (.hang ⟨65537, 0xAB, 0, 0⟩) := by decide
theorem test_decode_audioMono :
    decode Params.reference (.chunkHdr [0x20, 0x10, 0x03, 0x00, 0x00, 0x00, 0x00, 0x01]) =
      .ok (.audioMono ⟨3, 0, 0, 1⟩) := by decide
theorem test_decode_audioStereo :
    decode Params.reference (.chunkHdr [0x21, 0x10, 0x04, 0x00, 0x00, 0x00, 0xF0, 0x10]) =
      .ok (.audioStereo ⟨4, 0, 0xF0, 0x10⟩) := by decide
theorem test_decode_packet :
    decode Params.reference (.chunkHdr [0x30, 0x10, 0x00, 0x00, 0x00, 0x00, 0x03, 0x00]) =
      .ok (.packet ⟨0, 0, 3, 0⟩) := by decide
theorem test_decode_unknown_tag :
    decode Params.reference (.chunkHdr [0x34, 0x12, 0x02, 0x00, 0x00, 0x00, 0x00, 0x00]) =
      .error (.unknownTag 0x1234) := by decide
theorem test_decode_opcodes8 :
    (decode Params.reference (.qop8 0b00), decode Params.reference (.qop8 0b01), decode Params.reference (.qop8 0b10),
      decode Params.reference (.qop8 0b11)) = (.ok .skip8, .ok .mot8, .ok .vq8, .ok .sub8) := by decide
theorem test_decode_opcodes4 :
    (decode Params.reference (.qop4 0b00), decode Params.reference (.qop4 0b01), decode Params.reference (.qop4 0b10),
      decode Params.reference (.qop4 0b11)) = (.ok .skip4, .ok .mot4, .ok .vq4, .ok .quad2) := by decide
theorem test_decode_delta : decode Params.reference (.delta 0x83) = .ok (.delta 0x83) := by decide
theorem test_decode_start :
    decode Params.reference (.hostCmd ⟨0, 7, 0, 10, 20, 320, 240, 0b0101, 5000⟩) =
      .ok (.start 7 10 20 320 240 0b0101 5000) := by decide
theorem test_decode_tick :
    decode Params.reference (.hostCmd { portWord 1 with handle := 3, now := 1100 }) = .ok (.tick 3 1100) := by decide
theorem test_decode_stop : decode Params.reference (.hostCmd { portWord 2 with handle := 3 }) = .ok (.stop 3) := by decide
theorem test_decode_getframe :
    decode Params.reference (.hostCmd { portWord 3 with handle := 3 }) = .ok (.getframe 3) := by decide
theorem test_decode_resume :
    decode Params.reference (.hostCmd { portWord 4 with handle := 3 }) = .ok (.resume 3) := by decide
theorem test_decode_reserved_commands :
    (decode Params.reference (.hostCmd (portWord 5)), decode Params.reference (.hostCmd (portWord 6)),
      decode Params.reference (.hostCmd (portWord 7))) =
      (.error (.reservedCommand 5), .error (.reservedCommand 6), .error (.reservedCommand 7)) := by decide

/-- V-CH-1 as a 64-bit word, numbered as the opcode table numbers it. -/
theorem test_table_word_codebook : decodeTableWord 64 0x04010000001C1002 = some (.codebook ⟨28, 0, 1, 4⟩) := by decide
theorem test_table_word_filehdr : decodeTableWord 64 0x000AFFFFFFFF1084 = some (.filehdr 0x1084 0xFFFFFFFF 10) := by
  decide
theorem test_table_word_resume : decodeTableWord 8 4 = some (.resume 0) := by decide
theorem test_table_word_delta : decodeTableWord 8 0x83 = some (.delta 0x83) := by decide

/-! ## Placing an instruction where the next step fetches it -/

theorem test_place_hang :
    (slot0 (step (State.reset.withFetchWord 64 0x1013))).map (fun x => x.offset.toNat) = some 16 := by decide +kernel
theorem test_place_filehdr :
    (slot0 (step (State.reset.withFetchWord 64 0x000AFFFFFFFF1084))).map (fun x => (x.fps.toNat, x.offset.toNat)) =
      some (10, 8) := by decide +kernel
theorem test_place_command : answer (step (State.reset.withFetchWord 8 3)) = some .noFrame := by decide +kernel
theorem test_place_delta :
    (slot0 (step (State.reset.withFetchWord 8 0x81))).map (fun x => x.audioBuf) = some [-1, -1] := by decide +kernel

/-! ## One step of each instruction -/

/-- V-HDR-2: a header with fps 0. -/
theorem test_filehdr_default_fps :
    (slot0 (step (stand (.header 0 false) (player 0 16) [0x84, 0x10, 0, 0, 0, 0, 0, 0]))).map
      (fun x => (x.fps.toNat, x.offset.toNat, x.status)) = some (30, 8, .play) := by decide +kernel

/-- V-HDR-4: another magic. -/
theorem test_filehdr_invalid_magic :
    trap0 (step (stand (.header 0 false) (player 0 16) [0x85, 0x10])) = some (.endOfStream, .invalidMagic, 0) := by
  decide +kernel

/-- V-INF-1. -/
theorem test_info_size :
    (slot0 (exec (.info (header 4 0 0)) (chunkAt [0x10, 0, 0x10, 0]))).map
      (fun x => (x.w.toNat, x.h.toNat, x.atValid, x.first, x.offset.toNat)) = some (16, 16, false, true, 20) := by
  decide +kernel

/-- V-INF-2. -/
theorem test_info_four_to_one :
    trap0 (exec (.info (header 4 0 0)) (chunkAt [0x40, 0, 0x10, 0])) = some (.endOfStream, .modeUnsupported, 8) := by
  decide +kernel

/-- V-CB-5. -/
theorem test_codebook_tiles :
    (slot0 (exec (.codebook (header 28 1 4)) (chunkAt codebook5))).map (fun x => (x.cb2, x.cb4, x.n2.toNat, x.n4.toNat)) =
      some ([small 0x10, small 0x20, small 0x30, small 0x40], [tile5], 4, 1) := by decide +kernel

/-- V-CB-5: the 8x8 tile. -/
theorem test_codebook_tile8 :
    (slot0 (exec (.codebook (header 28 1 4)) (chunkAt codebook5))).map
        (fun x => x.cb8.map fun u => (u.getD 1 [], u.getD 4 [])) =
      some [([0x10, 0x10, 0x11, 0x11, 0x20, 0x20, 0x21, 0x21], [0x30, 0x30, 0x31, 0x31, 0x40, 0x40, 0x41, 0x41])] := by
  decide +kernel

/-- V-MC-5: the bases of VIDEO dx=1 dy=-1. -/
theorem test_video_motion_table :
    (slot0 (exec (.video (header 0 0xFF 0x01)) (chunkAt []))).map
        (fun x => (x.mdx.toInt, x.mdy.toInt, x.mcomp[0x88]?, x.mcomp[0x0F]?)) =
      some (1, -1, some (-1, 1), some (7, -6)) := by decide +kernel

/-- V-AT-2: the nodes and the five entries of node 4. -/
theorem test_address_table_24x16 :
    (genTable one 24 16).drop 20 =
      [(16, 0), (16, 0), (20, 0), (16, 4), (20, 4), (16, 8), (16, 8), (20, 8), (16, 12), (20, 12)] := by decide

/-- A macroblock of 32 x 32 pixels is walked depth first (log entry 27): its first quarter, then the second. -/
theorem test_address_table_mb32 :
    ((List.range 8).map fun k => (genTable { one with mb := 32 } 32 32).getD (5 * k) (0, 0)) =
      [(0, 0), (8, 0), (0, 8), (8, 8), (16, 0), (24, 0), (16, 8), (24, 8)] := by decide

/-- Each edge that cannot be quartered down to 8 x 8 blocks is refused. -/
theorem test_params_refuse_mb : ({ one with mb := 24 } : Params).wf = false ∧ ({ one with mb := 0 } : Params).wf = false := by
  decide

/-- V-INF-9. -/
theorem test_hang_advances :
    (slot0 (exec (.hang (header 0 0 0)) (chunkAt []))).map (fun x => (x.offset.toNat, x.decoded.toNat)) = some (16, 0) := by
  decide +kernel

/-- V-CH-9: PACKET n=3. -/
theorem test_packet_rawn :
    (slot0 (exec (.packet (header 0 3 0)) (chunkAt []))).map (fun x => x.rawn.toNat) = some 3 := by decide +kernel

/-- V-OP-9: SKIP8 writes nothing. -/
theorem test_skip8 : (slot0 (exec .skip8 (nodeAt [] 0 1))).map (fun x => (x.fb0.cells, x.leaf)) = some ([], 2) := by
  decide +kernel

/-- V-OP-8: a source block left of the frame. -/
theorem test_mot8_outside :
    trap0 (exec .mot8 (nodeAt [0x98] 0 0)) = some (.endOfStream, .indexOutOfRange, 8) := by decide +kernel

/-- A copy with the displacement (0, 0) from bank 1. -/
theorem test_mot8_copies :
    bank0Bytes
        (exec .mot8
          (stand (.video 0 .node) { painter [0x88] 0 0 with fb1 := ⟨[(0, 0x5A), (119, 0xA5)], 9⟩ } [])) 119 1 =
      some [0xA5] := by decide +kernel

/-- Program P1: row 0 of the node (8, 0). -/
theorem test_vq8_row : bank0Bytes (exec .vq8 (nodeAt [0] 0 1)) 8 8 =
    some [0x10, 0x10, 0x11, 0x11, 0x20, 0x20, 0x21, 0x21] := by decide +kernel

/-- V-OP-6: a code at N4. -/
theorem test_vq8_code : trap0 (exec .vq8 (nodeAt [1] 0 1)) = some (.endOfStream, .indexOutOfRange, 8) := by
  decide +kernel

theorem test_sub8 : (match exec .sub8 (nodeAt [] 0 3) with | .next t => t.phase | .fault _ => .idle | .refused _ => .idle) =
    .video 0 (.child 0) := by decide +kernel

/-- V-OP-11: the last child ends the node. -/
theorem test_skip4_last : (slot0 (exec .skip4 (childAt [] 0 0 3))).map (fun x => (x.fb0.cells, x.leaf)) = some ([], 1) := by
  decide +kernel

/-- MOT4 with motion byte 0x8C at child 3 of the node (8, 8): the source is four rows up (V-MC-1, program P2). -/
theorem test_mot4_copies :
    bank0Bytes
        (exec .mot4
          (stand (.video 0 (.child 3)) { painter [0x8C] 0 3 with fb1 := ⟨[(140, 0x30)], 9⟩ } [])) 204 1 =
      some [0x30] := by decide +kernel

/-- Program P2: VQ4 0 at the child (8, 8) is CB4[0]. -/
theorem test_vq4_row : bank0Bytes (exec .vq4 (childAt [0] 0 3 0)) 136 4 = some [0x10, 0x11, 0x20, 0x21] := by
  decide +kernel

/-- Program P2: QUAD2 3 2 1 0 at the child (12, 8), rows 8 and 11. -/
theorem test_quad2_rows :
    (bank0Bytes (exec .quad2 (childAt [3, 2, 1, 0] 0 3 1)) 140 4,
      bank0Bytes (exec .quad2 (childAt [3, 2, 1, 0] 0 3 1)) 188 4) =
      (some [0x40, 0x41, 0x30, 0x31], some [0x22, 0x23, 0x12, 0x13]) := by decide +kernel

/-- V-OP-10: the fourth code is missing. -/
theorem test_quad2_truncated :
    trap0 (exec .quad2 (childAt [0, 1, 2] 0 0 0)) = some (.endOfStream, .truncated, 8) := by decide +kernel

/-- V-AU-1: the accumulator wraps. -/
theorem test_delta_wraps :
    (slot0 (exec (.delta 0x01) (stand (.audio 0 false) (speaker [0x01] 0x7FFF 0) []))).map (fun x => (x.accL, x.audioBuf)) =
      some (0x8000, [-32768, -32768]) := by decide +kernel

/-- V-AU-5. -/
theorem test_delta_largest_fall :
    (slot0 (exec (.delta 0xFF) (stand (.audio 0 true) (speaker [0xFF, 0] 0 0) []))).map (fun x => (x.accL, x.audioBuf)) =
      some (0xC0FF, [-16129]) := by decide +kernel

/-- V-AU-10: the seed of a mono chunk under CFG_SIGNED_OUT. -/
theorem test_mono_seed :
    (slot0 (exec (.audioMono (header 0 0 0x81)) { chunkAt [] with cfg := { one with cfgSignedOut := true } })).map
      (fun x => x.accL) = some 0x0100 := by decide +kernel

/-- V-AU-9: the seeds of a stereo chunk. -/
theorem test_stereo_seeds :
    (slot0 (exec (.audioStereo (header 0 0xF0 0x10)) (chunkAt []))).map (fun x => (x.accL, x.accR)) =
      some (0x1000, 0xF000) := by decide +kernel

/-- V-SCH-3: no free slot. -/
theorem test_start_no_slot :
    answer (exec (.start 0 0 0 0 0 0 0) (stand .idle (player 8 16) [])) = some (.error .noSlot) := by decide +kernel

/-- V-SCH-2: the largest target. -/
theorem test_tick_target :
    (slot0 (exec (.tick 0 0xFFFFFFFFFFFF) (stand .idle { player 8 16 with fps := 65535 } []))).map
      (fun x => (x.target.toNat, x.nowL.toNat)) = some (18446462598732775, 281474976710655) := by decide +kernel

/-- V-SCH-6: a handle at N_SESS. -/
theorem test_stop_invalid_handle :
    answer (exec (.stop 1) (stand .idle (player 8 16) [])) = some (.status .endOfStream) := by decide +kernel

theorem test_getframe_none : answer (exec (.getframe 0) (stand .idle (player 8 16) [])) = some .noFrame := by
  decide +kernel

/-- A frame handed out by GETFRAME, and a TICK of its slot: the reference is stale after it (70_reset R329). -/
theorem test_tick_ends_reference :
    (match exec (.tick 0 0) (stand .idle { player 8 16 with hasFrame := true } []) with
      | .next t => t.lease 0
      | .fault _ => 0
      | .refused _ => 0) ≠
      (frameRef (stand .idle { player 8 16 with hasFrame := true } []) 0 { player 8 16 with hasFrame := true }).lease := by
  decide

/-- A TICK on the port inside another TICK (20_memory R73). -/
theorem test_command_while_busy :
    (match step { stand (.loop 0) (player 8 16) [] with port := some (portWord 1) } with
      | .refused r => some r
      | .fault _ => none
      | .next _ => none) = some .commandWhileBusy := by decide +kernel

/-- Program P3, run B: RESUME of an Idle session. -/
theorem test_resume_idle :
    answer (exec (.resume 0) (stand .idle { player 8 16 with status := .idle } [])) = some (.status .play) := by
  decide +kernel

/-- V-CH-7: an unknown tag with its payload cut is Truncated, not BadOpcode. -/
theorem test_unknown_tag_cut :
    trap0 (step (stand (.fetch 0) (player 8 18) (List.replicate 8 0 ++ [0x34, 0x12, 3, 0, 0, 0, 0, 0, 0x61, 0x62]))) =
      some (.endOfStream, .truncated, 8) := by decide +kernel

/-! ## Witnesses: for each statement with hypotheses, a concrete state and operands that meet them all

The largest declared length is met with a source whose unlisted bytes are 0. -/

/-- At the fetch of a chunk at OFFSET 8, with `len` payload bytes of 0, the last of the source. -/
def zerosAt (len : Nat) : State := stand (.fetch 0) (player 8 (16 + len)) []

/-- The source of such a machine. -/
def zeros (len : Nat) : Source := ⟨0, 16 + len, []⟩

/-- The source of `chunkAt`. -/
def chunkSource (payload : List Byte) : Source := ⟨0, 16 + payload.length, List.replicate 16 0 ++ payload⟩

theorem witness_DecodeEncodeRoundTrip :
    Params.reference.wf = true ∧ (Instr.video (header 65536 0xFF 0x80)).wf Params.reference = true := by decide

theorem witness_EncodeDecodeRoundTrip :
    (∀ c, Encoded.chunkHdr [0x13, 0x10, 0, 0, 1, 0xAB, 1, 2] ≠ .hostCmd c) ∧
      decode Params.reference (.chunkHdr [0x13, 0x10, 0, 0, 1, 0xAB, 1, 2]) = .ok (.hang ⟨65536, 0xAB, 1, 2⟩) :=
  ⟨nofun, by decide⟩

theorem witness_UnknownTagIsBadOpcode :
    let s := stand (.fetch 0) (player 8 18) (List.replicate 8 0 ++ [0x34, 0x12, 2, 0, 0, 0, 0, 0, 0x61, 0x62])
    let src : Source := ⟨0, 18, List.replicate 8 0 ++ [0x34, 0x12, 2, 0, 0, 0, 0, 0, 0x61, 0x62]⟩
    ChunkReady s 0 (fed src.bytes (player 8 18)) src (header 2 0 0) ∧ s.port = none ∧
      chunkFields (srcRead src (player 8 18).offset.toNat 8) = some (0x1234, header 2 0 0) ∧ 0x1234#16 ∉ s.cfg.tags :=
  ⟨⟨rfl, rfl, by decide, by decide, rfl⟩, rfl, by decide, by decide⟩

theorem witness_StepRuns_command :
    let s := { stand .idle (player 8 16) [] with port := some { portWord 1 with now := 50 } }
    s.phase = .idle ∧ s.port = some { portWord 1 with now := 50 } ∧
      decode s.cfg (.hostCmd { portWord 1 with now := 50 }) = .ok (.tick 0 50) := by decide

theorem witness_StepRuns_header :
    let x := fed [0x84, 0x10, 0, 0, 0, 0, 10, 0] (player 0 16)
    let s := stand (.header 0 true) x [0x84, 0x10, 0, 0, 0, 0, 10, 0]
    s.phase = .header 0 true ∧ s.port = none ∧ s.slots[0]? = some x ∧ 16 ≤ x.srcLen.toNat ∧
      sourceOf s x = some ⟨0, 16, [0x84, 0x10, 0, 0, 0, 0, 10, 0]⟩ ∧
      decode s.cfg (.fileHdr ((srcRead ⟨0, 16, [0x84, 0x10, 0, 0, 0, 0, 10, 0]⟩ 0 16).take 8)) =
        .ok (.filehdr 0x1084 0 10) := by
  decide

theorem witness_StepRuns_chunk :
    let src : Source := ⟨0, 16, List.replicate 8 0 ++ [0x13, 0x10]⟩
    let x := fed src.bytes (player 8 16)
    let s := stand (.fetch 0) x src.bytes
    s.phase = .fetch 0 ∧ s.port = none ∧ s.slots[0]? = some x ∧ x.offset.toNat + 8 ≤ x.srcLen.toNat ∧
      sourceOf s x = some src ∧ decode s.cfg (.chunkHdr (srcRead src x.offset.toNat 8)) = .ok (.hang (header 0 0 0)) := by decide

/-- The word 0xEABA of program P4, first of a payload. -/
def wordOfP4 : Session := painter [0xBA, 0xEA, 0, 0, 0, 0] 0 0

/-- That session after its first opcode, 11, is taken. -/
def wordOfP4Next : Session := { wordOfP4 with opw := 0xAAE8, opn := 7, pptr := 2 }

theorem witness_StepRuns_node :
    let s := stand (.video 0 .node) wordOfP4 []
    s.phase = .video 0 .node ∧ s.port = none ∧ s.slots[0]? = some wordOfP4 ∧ sourceOf s wordOfP4 = some (zeros 6) ∧
      wordOfP4.leaf < wordOfP4.atN ∧
      nextOpcode wordOfP4 = .ok (3, wordOfP4Next) ∧ decode s.cfg (.qop8 3) = .ok .sub8 :=
  ⟨rfl, rfl, rfl, rfl, by decide, rfl, rfl⟩

theorem witness_StepRuns_child :
    let s := stand (.video 0 (.child 3)) wordOfP4 []
    s.phase = .video 0 (.child 3) ∧ s.port = none ∧ s.slots[0]? = some wordOfP4 ∧ sourceOf s wordOfP4 = some (zeros 6) ∧
      nextOpcode wordOfP4 = .ok (3, wordOfP4Next) ∧ decode s.cfg (.qop4 3) = .ok .quad2 :=
  ⟨rfl, rfl, rfl, rfl, rfl, rfl⟩

theorem witness_StepRuns_delta :
    let x := { speaker [1, 0x82, 3] 0 0 with audioPos := 1 }
    let s := stand (.audio 0 true) x []
    s.phase = .audio 0 true ∧ s.port = none ∧ s.slots[0]? = some x ∧ sourceOf s x = some (zeros 3) ∧
      x.audioPos < (if true then 2 * (x.cLen.toNat / 2) else x.cLen.toNat) ∧
      x.payload[x.audioPos]? = some 0x82 ∧ decode s.cfg (.delta 0x82) = .ok (.delta 0x82) := by decide

theorem witness_HeaderParseLoads :
    let s := stand (.header 0 false) (player 0 16) []
    s.phase = .header 0 false ∧ s.slots[0]? = some (player 0 16) ∧ 16 ≤ (player 0 16).srcLen.toNat := by decide

theorem witness_HeaderParseErrors :
    (let s := stand (.header 0 false) (player 0 15) [];
      s.phase = .header 0 false ∧ s.port = none ∧ s.slots[0]? = some (player 0 15) ∧ (player 0 15).srcLen.toNat < 16 ∧
        sourceOf s (player 0 15) = some ⟨0, 15, []⟩) ∧
    (let s := stand (.header 0 false) (player 0 16) [];
      s.phase = .header 0 false ∧ s.slots[0]? = some (player 0 16) ∧ 16 ≤ (player 0 16).srcLen.toNat ∧
        0x1085#16 ≠ s.cfg.magic) := by decide

theorem witness_LoopRestart :
    let s := stand (.header 0 true) (player 16 16) []
    s.phase = .header 0 true ∧ s.slots[0]? = some (player 16 16) ∧ 16 ≤ (player 16 16).srcLen.toNat := by decide

theorem witness_ChunkFetchErrors_header :
    let s := stand (.fetch 0) (player 8 15) []
    s.phase = .fetch 0 ∧ s.port = none ∧ s.slots[0]? = some (player 8 15) ∧ sourceOf s (player 8 15) = some ⟨0, 15, []⟩ ∧
      (player 8 15).srcLen.toNat < (player 8 15).offset.toNat + 8 := by decide

/-- V-CH-3. -/
theorem witness_ChunkFetchErrors_oversize :
    let src : Source := ⟨0, 16, List.replicate 8 0 ++ [0x13, 0x10, 1, 0, 1]⟩
    let s := stand (.fetch 0) (player 8 16) src.bytes
    s.phase = .fetch 0 ∧ s.port = none ∧ s.slots[0]? = some (fed src.bytes (player 8 16)) ∧
      sourceOf s (fed src.bytes (player 8 16)) = some src ∧
      (player 8 16).offset.toNat + 8 ≤ (player 8 16).srcLen.toNat ∧
      chunkFields (srcRead src (player 8 16).offset.toNat 8) = some (0x1013, header 65537 0 0) ∧
      65536 < (header 65537 0 0).len.toNat := by decide

/-- V-CH-7. -/
theorem witness_ChunkFetchErrors_payload :
    let src : Source := ⟨0, 18, List.replicate 8 0 ++ [0x34, 0x12, 3]⟩
    let s := stand (.fetch 0) (player 8 18) src.bytes
    s.phase = .fetch 0 ∧ s.port = none ∧ s.slots[0]? = some (fed src.bytes (player 8 18)) ∧
      sourceOf s (fed src.bytes (player 8 18)) = some src ∧
      (player 8 18).offset.toNat + 8 ≤ (player 8 18).srcLen.toNat ∧
      chunkFields (srcRead src (player 8 18).offset.toNat 8) = some (0x1234, header 3 0 0) ∧
      (header 3 0 0).len.toNat ≤ 65536 ∧
      (player 8 18).srcLen.toNat < (player 8 18).offset.toNat + 8 + (header 3 0 0).len.toNat := by decide

/-- V-CH-2: the longest chunk, the last of its source. -/
theorem witness_HangOnlyAdvances :
    ChunkReady (zerosAt 65536) 0 (player 8 65552) (zeros 65536) (header 65536 0 0) :=
  ⟨rfl, rfl, by decide, by decide, rfl⟩

theorem witness_PacketSetsRawn : ChunkReady (zerosAt 0) 0 (player 8 16) (zeros 0) (header 0 3 0xFF) :=
  ⟨rfl, rfl, by decide, by decide, rfl⟩

/-- The largest size, 512 x 512. -/
theorem witness_InfoDeclaresSize :
    let y := loaded (chunkSource [0, 2, 0, 2]) 0x1001 (header 4 0 0) (reader [0, 2, 0, 2])
    ChunkReady (chunkAt [0, 2, 0, 2]) 0 (reader [0, 2, 0, 2]) (chunkSource [0, 2, 0, 2]) (header 4 0 0) ∧
      y.payload = 0 :: 2 :: 0 :: 2 :: [] ∧ 512#16 = 2#8 ++ 0#8 ∧ (512#16).toNat ≤ one.maxW ∧ (512#16).toNat ≤ one.maxH ∧
      one.cfgHalf = false ∧ ¬ ((512#16).toNat ≠ 0 ∧ (512#16).toNat = 4 * (512#16).toNat) :=
  ⟨⟨rfl, rfl, by decide, by decide, rfl⟩, rfl, by decide, by decide, by decide, rfl, by decide⟩

/-- V-INF-4. -/
theorem witness_InfoErrors_truncated :
    ChunkReady (zerosAt 3) 0 (player 8 19) (zeros 3) (header 3 0 0) ∧ (header 3 0 0).len.toNat < 4 :=
  ⟨⟨rfl, rfl, by decide, by decide, rfl⟩, by decide⟩

/-- V-INF-3: the width 513; and the height 513. -/
theorem witness_InfoErrors_range :
    ChunkReady (chunkAt [1, 2, 16, 0]) 0 (reader [1, 2, 16, 0]) (chunkSource [1, 2, 16, 0]) (header 4 0 0) ∧
      (loaded (chunkSource [1, 2, 16, 0]) 0x1001 (header 4 0 0) (reader [1, 2, 16, 0])).payload = 1 :: 2 :: 16 :: 0 :: [] ∧
      one.maxW < (2#8 ++ 1#8).toNat ∧
      ChunkReady (chunkAt [16, 0, 1, 2]) 0 (reader [16, 0, 1, 2]) (chunkSource [16, 0, 1, 2]) (header 4 0 0) ∧
      (loaded (chunkSource [16, 0, 1, 2]) 0x1001 (header 4 0 0) (reader [16, 0, 1, 2])).payload = 16 :: 0 :: 1 :: 2 :: [] ∧
      one.maxH < (2#8 ++ 1#8).toNat :=
  ⟨⟨rfl, rfl, by decide, by decide, rfl⟩, rfl, by decide, ⟨rfl, rfl, by decide, by decide, rfl⟩, rfl, by decide⟩

/-- V-INF-2: 64 x 16. -/
theorem witness_InfoErrors_mode :
    ChunkReady (chunkAt [64, 0, 16, 0]) 0 (reader [64, 0, 16, 0]) (chunkSource [64, 0, 16, 0]) (header 4 0 0) ∧
      (loaded (chunkSource [64, 0, 16, 0]) 0x1001 (header 4 0 0) (reader [64, 0, 16, 0])).payload = 64 :: 0 :: 16 :: 0 :: [] ∧
      (0#8 ++ 64#8).toNat ≤ one.maxW ∧ (0#8 ++ 16#8).toNat ≤ one.maxH ∧
      (one.cfgHalf = true ∨ ((0#8 ++ 16#8).toNat ≠ 0 ∧ (0#8 ++ 64#8).toNat = 4 * (0#8 ++ 16#8).toNat)) :=
  ⟨⟨rfl, rfl, by decide, by decide, rfl⟩, rfl, by decide, by decide, by decide⟩

/-- V-CB-5. -/
theorem witness_CodebookBuilds :
    let y := loaded (chunkSource codebook5) 0x1002 (header 28 1 4) (reader codebook5)
    ChunkReady (chunkAt codebook5) 0 (reader codebook5) (chunkSource codebook5) (header 28 1 4) ∧
      4 = (if (header 28 1 4).aux1 = 0 then 256 else (header 28 1 4).aux1.toNat) ∧
      1 = (if (header 28 1 4).aux0 = 0 ∧ (header 28 1 4).aux1 = 0 then 256 else (header 28 1 4).aux0.toNat) ∧
      6 * 4 + 4 * 1 ≤ (header 28 1 4).len.toNat ∧ ∀ k < 4 * 1, (y.payload.getD (6 * 4 + k) 0).toNat < 4 :=
  ⟨⟨rfl, rfl, by decide, by decide, rfl⟩, by decide, by decide, by decide, by decide +kernel⟩

/-- V-CB-1: both counts 0 mean 256. -/
theorem witness_CodebookBuilds_zero_counts :
    ChunkReady (zerosAt 2560) 0 (player 8 2576) (zeros 2560) (header 2560 0 0) ∧
      256 = (if (header 2560 0 0).aux0 = 0 ∧ (header 2560 0 0).aux1 = 0 then 256 else (header 2560 0 0).aux0.toNat) ∧
      6 * 256 + 4 * 256 ≤ (header 2560 0 0).len.toNat :=
  ⟨⟨rfl, rfl, by decide, by decide, rfl⟩, by decide, by decide⟩

/-- V-CB-7. -/
theorem witness_CodebookErrors_truncated :
    ChunkReady (zerosAt 27) 0 (player 8 43) (zeros 27) (header 27 1 4) ∧ (header 27 1 4).len.toNat < 6 * 4 + 4 * 1 :=
  ⟨⟨rfl, rfl, by decide, by decide, rfl⟩, by decide⟩

/-- V-CB-8: the last seed is n2. -/
theorem witness_CodebookErrors_seed :
    let payload := codebook5.take 27 ++ [4]
    let y := loaded (chunkSource payload) 0x1002 (header 28 1 4) (reader payload)
    ChunkReady (chunkAt payload) 0 (reader payload) (chunkSource payload) (header 28 1 4) ∧
      6 * 4 + 4 * 1 ≤ (header 28 1 4).len.toNat ∧ 0 < 1 ∧ (∀ j < 4 * 0, (y.payload.getD (6 * 4 + j) 0).toNat < 4) ∧
      ∃ m < 4, 4 ≤ (y.payload.getD (6 * 4 + 4 * 0 + m) 0).toNat :=
  ⟨⟨rfl, rfl, by decide, by decide, rfl⟩, by decide, by decide, by decide, 3, by decide, by decide +kernel⟩

/-- V-CB-6: the chunk of V-CB-5, in a session with empty dictionaries and in one that holds them already. -/
def rebuilt : State := stand (.fetch 0) { painter [] 0 0 with srcLen := 44 } (List.replicate 16 0 ++ codebook5)

theorem witness_CodebookDependsOnlyOnItsInputs :
    ChunkReady (chunkAt codebook5) 0 (reader codebook5) (chunkSource codebook5) (header 28 1 4) ∧
      ChunkReady rebuilt 0 (fed (chunkSource codebook5).bytes { painter [] 0 0 with srcLen := 44 }) (chunkSource codebook5) (header 28 1 4) ∧
      (∃ t y, exec (.codebook (header 28 1 4)) (chunkAt codebook5) = .next t ∧ t.slots[0]? = some y) ∧
      ∃ t y, exec (.codebook (header 28 1 4)) rebuilt = .next t ∧ t.slots[0]? = some y :=
  ⟨⟨rfl, rfl, by decide, by decide, rfl⟩, ⟨rfl, rfl, by decide, by decide, rfl⟩, ⟨_, _, rfl, rfl⟩, ⟨_, _, rfl, rfl⟩⟩

theorem witness_VideoPrologue : ChunkReady (zerosAt 4) 0 (player 8 20) (zeros 4) (header 4 0xFF 0x01) :=
  ⟨rfl, rfl, by decide, by decide, rfl⟩

/-- The macroblocks of R180, and the smallest ones. -/
theorem witness_AddressTable : one.mb = 8 * 2 ^ 1 ∧ ({ one with mb := 8 } : Params).mb = 8 * 2 ^ 0 := by decide

/-- V-OP-1: the word 0x87B1, the last two bytes of the payload. -/
theorem witness_EightOpcodesOfAWord :
    let x := painter [0xB1, 0x87] 0 0
    x.opn = 0 ∧ x.cLen.toNat ≤ 65536 ∧ x.pptr.toNat + 2 ≤ x.cLen.toNat ∧ x.payload[x.pptr.toNat]? = some 0xB1 ∧
      x.payload[x.pptr.toNat + 1]? = some 0x87 := by decide

/-- V-OP-1: the opcodes of that word. -/
theorem test_eight_opcodes :
    (match nextOpcodes 8 (painter [0xB1, 0x87] 0 0) with
      | .ok a => a.1
      | .raised _ _ => []
      | .stuck _ => []) = [2, 0, 1, 3, 2, 3, 0, 1] := by decide +kernel

/-- V-OP-4: one byte left, at a node and at a child. -/
theorem witness_OpcodeWordMissingIsTruncated :
    let x := painter [0xB1] 0 3
    sourceOf (nodeAt [0xB1] 0 3) x = some (zeros 1) ∧ sourceOf (childAt [0xB1] 0 3 3) x = some (zeros 1) ∧
      (nodeAt [0xB1] 0 3).phase = .video 0 .node ∧ (nodeAt [0xB1] 0 3).port = none ∧ (nodeAt [0xB1] 0 3).slots[0]? = some x ∧
      (childAt [0xB1] 0 3 3).phase = .video 0 (.child 3) ∧ (childAt [0xB1] 0 3 3).port = none ∧ (childAt [0xB1] 0 3 3).slots[0]? = some x ∧ x.leaf < x.atN ∧
      x.opn = 0 ∧ x.cLen.toNat < x.pptr.toNat + 2 := by decide +kernel

theorem witness_SkipTouchesNothing :
    (nodeAt [] 0 3).phase = .video 0 .node ∧ (nodeAt [] 0 3).slots[0]? = some (painter [] 0 3) ∧
      (childAt [] 0 3 0).phase = .video 0 (.child 0) ∧ (childAt [] 0 3 0).slots[0]? = some (painter [] 0 3) ∧
      (childAt [] 0 3 3).phase = .video 0 (.child 3) ∧ (childAt [] 0 3 3).slots[0]? = some (painter [] 0 3) := by decide +kernel

theorem witness_SubdivideGoesToTheChildren :
    (nodeAt [] 0 0).phase = .video 0 .node ∧ (nodeAt [] 0 0).slots[0]? = some (painter [] 0 0) := by decide +kernel

/-- The last node of the frame with the displacement (0, 0), and the first one with (8, 8): both source blocks end at the
right and lower edges. -/
theorem witness_Mot8CopiesTheBlock :
    (let x := painter [0x88] 0 3;
      (nodeAt [0x88] 0 3).phase = .video 0 .node ∧ (nodeAt [0x88] 0 3).slots[0]? = some x ∧ x.pptr.toNat < x.cLen.toNat ∧
        x.payload[x.pptr.toNat]? = some 0x88 ∧ x.addrTable[5 * x.leaf]? = some (8, 8) ∧
        x.mcomp[(0x88#8).toNat]? = some (0, 0) ∧ 8 + 8 ≤ x.w.toNat ∧ 8 + 8 ≤ x.h.toNat) ∧
    (let x := painter [0x00] 0 0;
      (nodeAt [0x00] 0 0).phase = .video 0 .node ∧ (nodeAt [0x00] 0 0).slots[0]? = some x ∧ x.pptr.toNat < x.cLen.toNat ∧
        x.payload[x.pptr.toNat]? = some 0x00 ∧ x.addrTable[5 * x.leaf]? = some (0, 0) ∧
        x.mcomp[(0x00#8).toNat]? = some (8, 8) ∧ ((8 : Nat) : Int) = (0 : Nat) + 8 ∧ 8 + 8 ≤ x.w.toNat ∧
        0 + 8 ≤ x.h.toNat) := by decide +kernel

theorem witness_Mot4CopiesTheBlock :
    let x := painter [0x8C] 0 3
    (childAt [0x8C] 0 3 3).phase = .video 0 (.child 3) ∧ (childAt [0x8C] 0 3 3).slots[0]? = some x ∧
      x.pptr.toNat < x.cLen.toNat ∧ x.payload[x.pptr.toNat]? = some 0x8C ∧
      x.addrTable[5 * x.leaf + 1 + (3 : Fin 4).val]? = some (12, 12) ∧ x.mcomp[(0x8C#8).toNat]? = some (0, -4) ∧
      ((12 : Nat) : Int) = (12 : Nat) + 0 ∧ ((8 : Nat) : Int) = (12 : Nat) + (-4) ∧ 12 + 4 ≤ x.w.toNat ∧
      8 + 4 ≤ x.h.toNat ∧ 12 + 4 ≤ x.h.toNat := by decide +kernel

/-- The operand byte is missing. -/
theorem witness_MotionErrors_truncated :
    (nodeAt [0] 1 0).slots[0]? = some (painter [0] 1 0) ∧ (childAt [0] 1 0 0).slots[0]? = some (painter [0] 1 0) ∧
      (painter [0] 1 0).cLen.toNat ≤ (painter [0] 1 0).pptr.toNat := by decide +kernel

/-- One pixel outside on the left, right, upper and lower side: 8 x 8 nodes. -/
theorem witness_MotionErrors_node :
    (∀ b ∈ [(0x98#8, 0, 0, 0, -1, 0), (0x78#8, 3, 8, 8, 1, 0), (0x89#8, 0, 0, 0, 0, -1), (0x87#8, 3, 8, 8, 0, 1)],
      let x := painter [b.1] 0 b.2.1
      x.pptr.toNat < x.cLen.toNat ∧ x.payload[x.pptr.toNat]? = some b.1 ∧
        x.addrTable[5 * x.leaf]? = some (b.2.2.1, b.2.2.2.1) ∧
        x.mcomp[b.1.toNat]? = some (b.2.2.2.2.1, b.2.2.2.2.2) ∧
        ((b.2.2.1 : Int) + b.2.2.2.2.1 < 0 ∨ (x.w.toNat : Int) < b.2.2.1 + b.2.2.2.2.1 + 8 ∨
          (b.2.2.2.1 : Int) + b.2.2.2.2.2 < 0 ∨ (x.h.toNat : Int) < b.2.2.2.1 + b.2.2.2.2.2 + 8)) := by decide +kernel

/-- One pixel outside on the left, right, upper and lower side: 4 x 4 children 0 and 3. -/
theorem witness_MotionErrors_child :
    (∀ b ∈ [(0x98#8, 0, 1, 0, 0, -1, 0), (0x78#8, 3, 4, 12, 12, 1, 0), (0x89#8, 0, 1, 0, 0, 0, -1),
        (0x87#8, 3, 4, 12, 12, 0, 1)],
      let x := painter [b.1] 0 b.2.1
      x.pptr.toNat < x.cLen.toNat ∧ x.payload[x.pptr.toNat]? = some b.1 ∧
        x.addrTable[5 * x.leaf + b.2.2.1]? = some (b.2.2.2.1, b.2.2.2.2.1) ∧
        x.mcomp[b.1.toNat]? = some (b.2.2.2.2.2.1, b.2.2.2.2.2.2) ∧
        ((b.2.2.2.1 : Int) + b.2.2.2.2.2.1 < 0 ∨ (x.w.toNat : Int) < b.2.2.2.1 + b.2.2.2.2.2.1 + 4 ∨
          (b.2.2.2.2.1 : Int) + b.2.2.2.2.2.2 < 0 ∨ (x.h.toNat : Int) < b.2.2.2.2.1 + b.2.2.2.2.2.2 + 4)) := by
  decide +kernel

theorem witness_Vq8WritesTheTile :
    let x := painter [0] 0 3
    (nodeAt [0] 0 3).phase = .video 0 .node ∧ (nodeAt [0] 0 3).slots[0]? = some x ∧ x.pptr.toNat < x.cLen.toNat ∧
      x.payload[x.pptr.toNat]? = some 0 ∧ (0#8).toNat < x.n4.toNat ∧ x.cb8[(0#8).toNat]? = some (tile8 tile5) ∧
      x.addrTable[5 * x.leaf]? = some (8, 8) ∧ 8 + 8 ≤ x.w.toNat ∧ 8 + 8 ≤ x.h.toNat := by decide +kernel

theorem witness_Vq4WritesTheTile :
    let x := painter [0] 0 3
    (childAt [0] 0 3 3).phase = .video 0 (.child 3) ∧ (childAt [0] 0 3 3).slots[0]? = some x ∧
      x.pptr.toNat < x.cLen.toNat ∧ x.payload[x.pptr.toNat]? = some 0 ∧ (0#8).toNat < x.n4.toNat ∧
      x.cb4[(0#8).toNat]? = some tile5 ∧ x.addrTable[5 * x.leaf + 1 + (3 : Fin 4).val]? = some (12, 12) ∧
      12 + 4 ≤ x.w.toNat ∧ 12 + 4 ≤ x.h.toNat := by decide +kernel

/-- No code left; and the code N4, for a node and for a child. -/
theorem witness_TileCodeErrors :
    (painter [0] 1 0).cLen.toNat ≤ (painter [0] 1 0).pptr.toNat ∧
      (nodeAt [1] 0 0).phase = .video 0 .node ∧ (nodeAt [1] 0 0).slots[0]? = some (painter [1] 0 0) ∧
      (childAt [1] 0 0 3).phase = .video 0 (.child 3) ∧ (childAt [1] 0 0 3).slots[0]? = some (painter [1] 0 0) ∧
      (painter [1] 0 0).pptr.toNat < (painter [1] 0 0).cLen.toNat ∧
      (painter [1] 0 0).payload[(painter [1] 0 0).pptr.toNat]? = some 1 ∧ (painter [1] 0 0).n4.toNat ≤ (1#8).toNat := by
  decide +kernel

/-- The codes of QUAD2 in the witnesses: 3, 2, 1, 0, then bad. -/
def quadCode (m : Nat) : Byte := BitVec.ofNat 8 (3 - m)

/-- Their tiles. -/
def quadTile (m : Nat) : Tile := small (0x40 - 0x10 * m)

theorem witness_Quad2WritesFourTiles :
    let x := painter [3, 2, 1, 0] 0 3
    (childAt [3, 2, 1, 0] 0 3 3).phase = .video 0 (.child 3) ∧ (childAt [3, 2, 1, 0] 0 3 3).slots[0]? = some x ∧
      x.cLen.toNat ≤ 65536 ∧ x.pptr.toNat + 4 ≤ x.cLen.toNat ∧
      (∀ m < 4, x.payload[x.pptr.toNat + m]? = some (quadCode m) ∧ (quadCode m).toNat < x.n2.toNat ∧
        x.cb2[(quadCode m).toNat]? = some (quadTile m)) ∧
      x.addrTable[5 * x.leaf + 1 + (3 : Fin 4).val]? = some (12, 12) ∧ 12 + 4 ≤ x.w.toNat ∧ 12 + 4 ≤ x.h.toNat := by
  decide +kernel

/-- At every operand m of the four, the payload ends before it. -/
theorem witness_Quad2Errors_truncated :
    ∀ m < 4,
      let x := painter (([3, 2, 1, 0] : List Byte).take m) 0 3
      x.cLen.toNat ≤ 65536 ∧ x.pptr.toNat + m ≤ x.cLen.toNat ∧
        (∀ q < m, x.payload[x.pptr.toNat + q]? = some (quadCode q) ∧ (quadCode q).toNat < x.n2.toNat ∧
          x.cb2[(quadCode q).toNat]? = some (quadTile q)) ∧
        x.addrTable[5 * x.leaf + 1 + (3 : Fin 4).val]? = some (12, 12) ∧ 12 + 4 ≤ x.w.toNat ∧ 12 + 4 ≤ x.h.toNat ∧
        x.cLen.toNat = x.pptr.toNat + m := by decide +kernel

/-- The codes before operand `m`, then the code 4. -/
def codesThenBad (m : Nat) : List Byte := ([3, 2, 1, 0] : List Byte).take m ++ [4]

/-- At every operand m of the four, the code is N2: the codes before it. -/
theorem witness_Quad2Errors_before :
    ∀ m < 4, (painter (codesThenBad m) 0 3).cLen.toNat = m + 1 ∧
      ∀ q < m, (painter (codesThenBad m) 0 3).payload[q]? = some (quadCode q) ∧ (quadCode q).toNat < 4 ∧
        (painter (codesThenBad m) 0 3).cb2[(quadCode q).toNat]? = some (quadTile q) := by decide +kernel

/-- At every operand m of the four, the code is N2: that code and the child. -/
theorem witness_Quad2Errors_code :
    ∀ m < 4,
      let x := painter (codesThenBad m) 0 3
      x.pptr = 0 ∧ x.addrTable[5 * x.leaf + 1 + (3 : Fin 4).val]? = some (12, 12) ∧ x.pptr.toNat + m < x.cLen.toNat ∧
        x.payload[x.pptr.toNat + m]? = some 4 ∧ x.n2.toNat ≤ (4#8).toNat := by decide +kernel

theorem witness_FrameCompletion :
    let x := painter [] 0 4
    (nodeAt [] 0 4).phase = .video 0 .node ∧ (nodeAt [] 0 4).port = none ∧ (nodeAt [] 0 4).slots[0]? = some x ∧
      sourceOf (nodeAt [] 0 4) x = some (zeros 0) ∧ x.atN ≤ x.leaf := by decide +kernel

/-- A frame of no pixel (V-INF-5). -/
theorem witness_PresentedFrameIsTheOneWritten :
    let x := { player 8 16 with atValid := true }
    let s := stand (.video 0 .node) x []
    s.phase = .video 0 .node ∧ s.slots[0]? = some x ∧ x.atN ≤ x.leaf ∧
      ∃ t y, step s = .next t ∧ t.slots[0]? = some y :=
  ⟨rfl, rfl, by decide, _, _, rfl, rfl⟩

theorem witness_AudioChunkOpens :
    ChunkReady (zerosAt 3) 0 (player 8 19) (zeros 3) (header 3 0 1) ∧ (player 8 19).silentFlag = false ∧
      ChunkReady (stand (.fetch 0) { player 8 19 with silentFlag := true } []) 0 { player 8 19 with silentFlag := true }
        (zeros 3) (header 3 0 1) :=
  ⟨⟨rfl, rfl, by decide, by decide, rfl⟩, rfl, ⟨rfl, rfl, by decide, by decide, rfl⟩⟩

/-- V-AU-1, V-AU-2: the wraps, in mono and in the right channel. -/
theorem witness_DeltaStepsTheAccumulator :
    (let x := speaker [0x01] 0x7FFF 0;
      let s := stand (.audio 0 false) x [];
      s.phase = .audio 0 false ∧ s.slots[0]? = some x ∧
        0x7FFF#16 = (if false = true ∧ x.audioPos % 2 = 1 then x.accR else x.accL) ∧
        (1 : Int) = (((0x01#8).toNat % 128 * ((0x01#8).toNat % 128) : Nat) : Int) ∧
        0x8000#16 = BitVec.ofInt 16 ((0x7FFF#16).toInt + (if (0x01#8).toNat < 128 then 1 else -1))) ∧
    (let x := { speaker [0, 0x81] 0 0x8000 with audioPos := 1 };
      let s := stand (.audio 0 true) x [];
      s.phase = .audio 0 true ∧ s.slots[0]? = some x ∧
        0x8000#16 = (if true = true ∧ x.audioPos % 2 = 1 then x.accR else x.accL) ∧
        (1 : Int) = (((0x81#8).toNat % 128 * ((0x81#8).toNat % 128) : Nat) : Int) ∧
        0x7FFF#16 = BitVec.ofInt 16 ((0x8000#16).toInt + (if (0x81#8).toNat < 128 then 1 else -1))) := by decide +kernel

/-- V-AU-8 and V-AU-13. -/
theorem witness_AudioMonoChunkPushes :
    (let x := speaker [0x03, 0x83, 0x7F] 0x0100 0;
      (stand (.audio 0 false) x []).port = none ∧ (stand (.audio 0 false) x []).slots[0]? = some x ∧
        sourceOf (stand (.audio 0 false) x []) x = some (zeros 3) ∧ x.audioPos = 0 ∧ x.audioBuf = [] ∧
        x.payload.length = x.cLen.toNat) ∧
    (let x := speaker [] 0 0;
      (stand (.audio 0 false) x []).port = none ∧ (stand (.audio 0 false) x []).slots[0]? = some x ∧
        sourceOf (stand (.audio 0 false) x []) x = some (zeros 0) ∧ x.audioPos = 0 ∧ x.audioBuf = [] ∧
        x.payload.length = x.cLen.toNat) := by decide

/-- V-AU-8: the samples. -/
theorem test_mono_samples : (monoRun 0x0100 [0x03, 0x83, 0x7F]).2 = [265, 265, 256, 256, 16385, 16385] := by decide

/-- V-AU-9, with an odd last byte added, and V-AU-12. -/
theorem witness_AudioStereoChunkPushes :
    (let x := speaker [0x02, 0x82, 0x01, 0x81, 0x55] 0x1000 0xF000;
      (stand (.audio 0 true) x []).port = none ∧ (stand (.audio 0 true) x []).slots[0]? = some x ∧
        sourceOf (stand (.audio 0 true) x []) x = some (zeros 5) ∧ x.audioPos = 0 ∧ x.audioBuf = [] ∧
        x.payload.length = x.cLen.toNat) ∧
    (let x := speaker [0x05] 0 0;
      (stand (.audio 0 true) x []).port = none ∧ (stand (.audio 0 true) x []).slots[0]? = some x ∧
        sourceOf (stand (.audio 0 true) x []) x = some (zeros 1) ∧ x.audioPos = 0 ∧ x.audioBuf = [] ∧
        x.payload.length = x.cLen.toNat) := by decide

/-- V-AU-9: the samples. -/
theorem test_stereo_samples :
    (stereoRun 0x1000 0xF000 [0x02, 0x82, 0x01, 0x81, 0x55]).2.2 = [4100, -4100, 4101, -4101] := by decide

/-- A machine of two slots, the first one in use. -/
def halfFull (len : Nat) : State :=
  { stand .idle (player 8 16) [] with
    slots := [player 8 16, Session.hardwareReset 2]
    leases := [0, 0]
    sources := [⟨5, len, []⟩] }

/-- A source of one byte, and one of the greatest length. -/
theorem witness_StartResetsTheLowestFreeSlot :
    ∀ len ∈ [1, 2 ^ 32 - 1],
      (halfFull len).phase = .idle ∧ (halfFull len).slots[1]? = some (Session.hardwareReset 2) ∧
        (Session.hardwareReset 2).inUse = false ∧
        (∀ j < 1, ∀ z ∈ (halfFull len).slots[j]?, z.inUse = true) ∧ srcOpen (halfFull len) 5 = some ⟨5, len, []⟩ ∧
        0 < len ∧ len < 2 ^ 32 := by decide +kernel

theorem witness_StartErrors :
    (∀ z ∈ (stand .idle (player 8 16) []).slots, z.inUse = true) ∧ (∃ z ∈ (halfFull 0).slots, z.inUse = false) ∧
      (∀ src ∈ (halfFull 0).sources, src.id ≠ 6) ∧ srcOpen (halfFull 0) 5 = some ⟨5, 0, []⟩ ∧
      (halfFull 0).phase = .idle := by decide +kernel

/-- A session in each of the four states. -/
theorem witness_TickOnASession :
    ∀ st ∈ [Status.play, .looped, .endOfStream, .idle],
      let x := { player 8 16 with status := st }
      (stand .idle x []).phase = .idle ∧ (stand .idle x []).slots[0]? = some x ∧ x.inUse = true ∧
        sourceOf (stand .idle x []) x = some (zeros 0) ∧
        (x.status = .play ∨ x.status = .looped ∨ x.status = .endOfStream ∨ x.status = .idle) := by decide

/-- The five ways on from the head of the catch-up loop: the frame count reached, a byte left, and the end of data with
HOLD and LOOP, with LOOP, with neither. -/
theorem witness_CatchUpLoopHead :
    (¬ ((player 8 16).status = .play ∧
        ({ player 8 16 with decoded := 1 } : Session).decoded.toNat < (player 8 16).target.toNat)) ∧
      (player 15 16).status = .play ∧ (player 15 16).decoded.toNat < (player 15 16).target.toNat ∧
      (player 15 16).offset.toNat < (player 15 16).srcLen.toNat ∧
      (player 16 16).srcLen.toNat ≤ (player 16 16).offset.toNat ∧
      (stand (.loop 0) (player 15 16) []).port = none ∧
      (∀ a b : Bool, (stand (.loop 0) { player 16 16 with holdFlag := a, loopFlag := b } []).slots[0]? =
        some { player 16 16 with holdFlag := a, loopFlag := b } ∧
        sourceOf (stand (.loop 0) { player 16 16 with holdFlag := a, loopFlag := b } [])
          { player 16 16 with holdFlag := a, loopFlag := b } = some (zeros 0)) := by decide

/-- A session with a frame and one without. -/
theorem witness_handles :
    ∀ b : Bool, (stand .idle { player 8 16 with hasFrame := b } []).phase = .idle ∧
      (stand .idle { player 8 16 with hasFrame := b } []).slots[0]? = some { player 8 16 with hasFrame := b } ∧
      ({ player 8 16 with hasFrame := b } : Session).inUse = true ∧
      sourceOf (stand .idle { player 8 16 with hasFrame := b } []) { player 8 16 with hasFrame := b } = some (zeros 0) := by
  decide

theorem witness_StopFreesTheSlot :
    (stand .idle (player 8 16) []).phase = .idle ∧ (stand .idle (player 8 16) []).slots[0]? = some (player 8 16) ∧
      (player 8 16).inUse = true := by decide

theorem witness_GetframeReturnsTheReference :
    (stand .idle { player 8 16 with hasFrame := true } []).slots[0]? = some { player 8 16 with hasFrame := true } ∧
      ({ player 8 16 with hasFrame := true } : Session).inUse = true ∧
      sourceOf (stand .idle { player 8 16 with hasFrame := true } []) { player 8 16 with hasFrame := true } =
        some (zeros 0) := by decide

theorem witness_ResumeWakesIdleOnly :
    (stand .idle { player 8 16 with status := .idle } []).slots[0]? = some { player 8 16 with status := .idle } ∧
      ({ player 8 16 with status := .idle } : Session).inUse = true ∧ (player 8 16).status ≠ .idle ∧
      sourceOf (stand .idle { player 8 16 with status := .idle } []) { player 8 16 with status := .idle } =
        some (zeros 0) := by decide

/-- The handle N_SESS, and the handle of a free slot. -/
theorem witness_InvalidHandles :
    (stand .idle (player 8 16) []).slots.length = (stand .idle (player 8 16) []).cfg.nSess ∧
      (stand .idle (player 8 16) []).cfg.nSess ≤ 1 ∧
      (stand .idle (Session.hardwareReset 0) []).slots[0]? = some (Session.hardwareReset 0) ∧
      (Session.hardwareReset 0).inUse = false ∧
      (stand .idle (Session.hardwareReset 0) []).slots.length = (stand .idle (Session.hardwareReset 0) []).cfg.nSess := by
  decide

theorem witness_CommandsRefused :
    (∀ k ∈ [5#3, 7#3],
      let s := { stand .idle (player 8 16) [] with port := some (portWord k) }
      s.phase = .idle ∧ s.port = some (portWord k) ∧ 5 ≤ (portWord k).code.toNat) ∧
    (∀ k ∈ [0#3, 7#3],
      let s := { stand (.loop 0) (player 8 16) [] with port := some (portWord k) }
      s.phase ≠ .idle ∧ s.port = some (portWord k)) := by decide

/-- The source has one byte more, its last byte is another one, or it is gone: inside a command and at its head. -/
theorem witness_CommandsRefused_source :
    ∀ c ∈ ([[⟨0, 17, []⟩], [⟨0, 16, List.replicate 15 0 ++ [1]⟩], [⟨1, 16, []⟩]] : List (List Source)),
      (∀ p ∈ [Phase.loop 0, .idle], SourceChanged { stand p (player 8 16) [] with sources := c } (player 8 16)) ∧
        (stand (.loop 0) (player 8 16) []).phase.slot = some 0 ∧ (player 8 16).inUse = true := by
  intro c hc
  refine ⟨fun p _ src hs => ?_, rfl, rfl⟩
  simp only [List.mem_cons, List.not_mem_nil, or_false] at hc
  rcases hc with rfl | rfl | rfl
  · cases hs; exact .inl (by decide)
  · cases hs; exact .inr ⟨15, by decide, by decide⟩
  · cases hs

/-- A changed byte of the source refuses the next step and a GETFRAME; bytes listed as 0 are no change. -/
theorem test_source_changed :
    (match step { stand (.loop 0) (player 8 16) [] with sources := [⟨0, 16, List.replicate 15 0 ++ [1]⟩] } with
      | .refused r => some r
      | .fault _ => none
      | .next _ => none) = some .sourceChanged ∧
    answer (exec (.getframe 0) { stand .idle (player 8 16) [] with sources := [⟨0, 16, List.replicate 16 0⟩] }) =
      some .noFrame := by decide +kernel

theorem witness_TrapEntry :
    (∀ n, (stand (.fetch 0) (player 8 16) []).phase ≠ .header n false) ∧
      (stand (.header 0 false) (player 8 16) []).phase = .header 0 false :=
  ⟨nofun, rfl⟩

/-! ## A busy machine, which meets the invariant -/

/-- A session at the one node of an 8 x 8 frame, with the two opcodes 00 11 in the cache. -/
def busySession : Session :=
  { player 8 20 with
    w := 8
    h := 8
    addrTable := genTable one 8 8
    atN := 1
    atValid := true
    mcomp := motionTable 0 0
    cLen := 4
    payload := [0, 0, 0, 0]
    opw := 0x3000
    opn := 2 }

/-- A session that a trap ended. -/
def endedSession : Session := { player 8 16 with status := .endOfStream, err := .badOpcode, errOff := 8, srcId := 1 }

/-- A machine of two slots inside the TICK of slot 0; slot 1 is in EndOfStream. -/
def busy : State where
  cfg := { Params.reference with nSess := 2 }
  sources := [⟨0, 20, []⟩, ⟨1, 16, []⟩]
  slots := [busySession, endedSession]
  phase := .video 0 .node
  port := none
  result := none
  leases := [1, 0]
  freeCount := 4

/-- That machine before its TICK: both slots are idle and `c` is presented. -/
def waiting (c : PortWord) : State := { busy with phase := .idle, port := some c }

theorem surface_unwritten_within (n k : Nat) : (Surface.unwritten k).within n :=
  ⟨List.Pairwise.nil, fun _ h => absurd h List.not_mem_nil⟩

theorem busySession_live {s : State} (hs : s.sources = busy.sources) : busySession.Live busy.cfg s where
  mode := rfl
  depth := rfl
  offset := by decide
  width := by decide
  height := by decide
  count2 := by decide
  count4 := by decide
  tiles := fun _ => by decide
  table := fun _ => by decide
  source := by simp only [sourceOf, srcOpen, hs]; decide
  frame := fun h => absurd h (by decide)
  error := fun h => absurd rfl h
  bank0 := surface_unwritten_within _ 0
  bank1 := surface_unwritten_within _ 1
  audio := fun _ h => absurd h List.not_mem_nil

theorem endedSession_live {s : State} (hs : s.sources = busy.sources) : endedSession.Live busy.cfg s where
  mode := rfl
  depth := rfl
  offset := by decide
  width := by decide
  height := by decide
  count2 := by decide
  count4 := by decide
  tiles := fun h => absurd rfl h
  table := fun h => absurd h (by decide)
  source := by simp only [sourceOf, srcOpen, hs]; decide
  frame := fun h => absurd h (by decide)
  error := fun _ => rfl
  bank0 := surface_unwritten_within _ 0
  bank1 := surface_unwritten_within _ 1
  audio := fun _ h => absurd h List.not_mem_nil

theorem busySession_video : busySession.InVideo .node where
  chunk := ⟨rfl, rfl, by decide, by decide, by decide, by decide⟩
  valid := rfl
  motion := by decide +kernel
  pptr := by decide
  opn := by decide
  leaf := by decide
  child := fun h => absurd rfl h

theorem busy_legal {s : State} (hs : s.sources = busy.sources) : ∀ x ∈ busy.slots, x.Legal busy.cfg s := by
  intro x hx
  simp only [busy, List.mem_cons, List.not_mem_nil, or_false] at hx
  rcases hx with rfl | rfl
  · exact ⟨fun _ => busySession_live hs, fun h => absurd h (by decide)⟩
  · exact ⟨fun _ => endedSession_live hs, fun h => absurd h (by decide)⟩

theorem busy_inv : busy.Inv := ⟨by decide, by decide, by decide, busy_legal rfl, busySession, rfl, busySession_video⟩

theorem waiting_inv (c : PortWord) : (waiting c).Inv := 
  ⟨show busy.cfg.wf = true by decide, rfl, rfl, busy_legal (s := waiting c) rfl, trivial⟩

theorem witness_InvKeptByEveryStep : busy.Inv ∧ ∃ t, step busy = .next t := ⟨busy_inv, _, rfl⟩

theorem witness_EveryStepGoes :
    (waiting { portWord 4 with handle := 1 }).Inv ∧ (waiting { portWord 4 with handle := 1 }).HostObeys :=
  ⟨waiting_inv _, fun c hc => by cases hc; decide⟩

/-- Inside a command the host presents none. -/
theorem witness_EveryStepGoes_busy : busy.Inv ∧ busy.HostObeys := ⟨busy_inv, fun c hc => by cases hc⟩

theorem witness_EveryCommandTerminates : busy.Inv ∧ busy.phase.slot = some 0 ∧ busy.port = none :=
  ⟨busy_inv, rfl, rfl⟩

/-- A TICK of the session in EndOfStream. -/
theorem witness_EndOfStreamIsTerminal :
    (waiting { portWord 1 with handle := 1, now := 500 }).Inv ∧
      (∃ t, step (waiting { portWord 1 with handle := 1, now := 500 }) = .next t) ∧
      (waiting { portWord 1 with handle := 1, now := 500 }).slots[1]? = some endedSession ∧ endedSession.inUse = true ∧
      endedSession.status = .endOfStream :=
  ⟨waiting_inv _, ⟨_, rfl⟩, rfl, rfl, rfl⟩

/-- A START with no free slot, a TICK, and a step inside a TICK. -/
theorem witness_OneSlotChanges :
    (∃ t, step busy = .next t) ∧ busy.phase.slot = some 0 ∧ (∃ t, step (waiting (portWord 0)) = .next t) ∧
      (portWord 0).code = 0 ∧ (∃ t, step (waiting { portWord 1 with now := 500 }) = .next t) ∧
      ({ portWord 1 with now := 500 } : PortWord).code ≠ 0 :=
  ⟨⟨_, rfl⟩, rfl, ⟨_, rfl⟩, rfl, ⟨_, rfl⟩, by decide⟩

theorem witness_SlotsDoNotInterfere : busy.phase.slot = some 0 ∧ 1 ≠ 0 ∧ ∃ t, step busy = .next t :=
  ⟨rfl, by decide, _, rfl⟩

theorem witness_LatchedRegistersStay :
    (∃ t, step busy = .next t) ∧ busy.slots[0]? = some busySession ∧ busySession.inUse = true := ⟨⟨_, rfl⟩, rfl, rfl⟩

/-- A step inside a VIDEO chunk. -/
theorem witness_DecodedNeverDecreases :
    busy.Inv ∧ (∃ t, step busy = .next t) ∧ busy.slots[0]? = some busySession ∧ busySession.inUse = true :=
  ⟨busy_inv, ⟨_, rfl⟩, rfl, rfl⟩

theorem witness_DecodedNeverPassesTarget :
    busy.Inv ∧ busy.phase.slot = some 0 ∧ busy.phase ≠ .header 0 false ∧ busy.slots[0]? = some busySession ∧
      busySession.OnTime ∧ ∃ t, step busy = .next t :=
  ⟨busy_inv, rfl, by decide, rfl, ⟨by decide, by decide⟩, _, rfl⟩

end Sys2Proof.Tests
end

section
/-! The steps the machine refuses (00_scope R9 (c)): reserved commands, a command inside a command, a source that changed. -/

namespace Sys2Proof.Machine

/-! ## A step by what the fetch finds -/

theorem step_of_done {s : State} {o : Host.Outcome State Fault Refusal} (hf : fetch s = .done o) : step s = o := by
  simp [step, hf]

theorem step_of_instr {s s1 : State} {e : Encoded} {i : Instr} (hf : fetch s = .instr e s1)
    (hd : decode s1.cfg e = .ok i) : step s = exec i s1 := by
  simp [step, hf, hd]

theorem step_of_illegal {s s1 : State} {e : Encoded} {err : DecodeError} (hf : fetch s = .instr e s1)
    (hd : decode s1.cfg e = .error err) : step s = illegal e err s1 := by
  simp [step, hf, hd]

theorem fetchPlace_of_slot {s : State} {h : Nat} (hp : s.phase.slot = some h) :
    ∃ k, fetchPlace s = withSlot s h k := by
  cases hph : s.phase <;> rw [hph] at hp <;> cases hp <;> exact ⟨_, by rw [fetchPlace, hph]⟩

/-! ## Commands -/

/-- The codes from 5 up are reserved (30_encoding R108 (f)). -/
theorem decodeCommand_reserved {c : PortWord} (hc : 5 ≤ c.code.toNat) :
    decodeCommand c = .error (.reservedCommand c.code) := by
  have hne : ∀ n : BitVec 3, n.toNat < 5 → c.code ≠ n := fun n hn heq => by rw [heq] at hc; omega
  simp [decodeCommand, hne]

/-- The codes 0 to 4 are the five commands (30_encoding R107). -/
theorem decodeCommand_cases {c : PortWord} (hc : c.code.toNat ≤ 4) :
    (c.code = 0 ∧ decodeCommand c = .ok (.start c.srcId c.x c.y c.w c.h c.flags c.now)) ∨
      decodeCommand c = .ok (.tick c.handle c.now) ∨ decodeCommand c = .ok (.stop c.handle) ∨
      decodeCommand c = .ok (.getframe c.handle) ∨ decodeCommand c = .ok (.resume c.handle) := by
  have hcode : ∀ k : BitVec 3, k.toNat ≤ 4 → k = 0 ∨ k = 1 ∨ k = 2 ∨ k = 3 ∨ k = 4 := by decide
  rcases hcode c.code hc with h | h | h | h | h
  · exact .inl ⟨h, by simp [decodeCommand, h]⟩
  · exact .inr (.inl (by simp [decodeCommand, h]))
  · exact .inr (.inr (.inl (by simp [decodeCommand, h])))
  · exact .inr (.inr (.inr (.inl (by simp [decodeCommand, h]))))
  · exact .inr (.inr (.inr (.inr (by simp [decodeCommand, h]))))

theorem session?_of_inUse {s : State} {h : Nat} {x : Session} (hx : s.slots[h]? = some x) (hu : x.inUse = true) :
    session? s h = some x := by
  simp [session?, hx, hu]

theorem session?_eq_some {s : State} {h : Nat} {x : Session} (hs : session? s h = some x) :
    s.slots[h]? = some x ∧ x.inUse = true := by
  cases hx : s.slots[h]? with
  | none => simp [session?, hx] at hs
  | some y =>
    by_cases hu : y.inUse = true
    · simp only [session?, hx, hu, if_true, Option.some.injEq] at hs
      exact ⟨congrArg some hs, hs ▸ hu⟩
    · simp [session?, hx, hu] at hs

/-- A session whose source changed has none (93_implementation_defined U6). -/
theorem SourceChanged.sourceOf_eq_none {s : State} {x : Session} (hc : SourceChanged s x) : sourceOf s x = none := by
  cases ho : srcOpen s x.srcId with
  | none => simp [sourceOf, ho]
  | some src => exact sourceOf_changed ho (hc src ho)

theorem step_reservedCommand {s : State} {c : PortWord} (hp : s.phase = .idle) (hc : s.port = some c)
    (h5 : 5 ≤ c.code.toNat) : step s = .refused (.reservedCommand c.code) := by
  have hf : fetch s = .instr (.hostCmd c) { s with port := none } := by simp [fetch_idle hp, fetchCommand, hc]
  exact step_of_illegal hf (decodeCommand_reserved h5)

/-- Inside a command the five commands are refused (20_memory R73). -/
theorem exec_command_busy {s : State} (hp : s.phase ≠ .idle) :
    (∀ srcId x y w h flags now, exec (.start srcId x y w h flags now) s = .refused .commandWhileBusy) ∧
      (∀ h now, exec (.tick h now) s = .refused .commandWhileBusy) ∧
      (∀ h, exec (.stop h) s = .refused .commandWhileBusy) ∧
      (∀ h, exec (.getframe h) s = .refused .commandWhileBusy) ∧
      (∀ h, exec (.resume h) s = .refused .commandWhileBusy) :=
  ⟨fun _ _ _ _ _ _ _ => if_neg hp, fun _ _ => if_neg hp, fun _ => if_neg hp, fun _ => if_neg hp, fun _ => if_neg hp⟩

theorem step_sourceChanged {s : State} {h : Nat} {x : Session} (hx : s.slots[h]? = some x) (hc : SourceChanged s x)
    (hp : s.phase.slot = some h) (hq : s.port = none) : step s = .refused .sourceChanged := by
  obtain ⟨k, hk⟩ := fetchPlace_of_slot hp
  exact step_of_done (by rw [fetch_quiet hq, hk, withSlot_changed hx hc.sourceOf_eq_none])

/-- TICK, GETFRAME and RESUME of a session whose source changed are refused (93_implementation_defined U6). -/
theorem exec_sourceChanged {s : State} {h : Nat} {x : Session} (hx : s.slots[h]? = some x) (hc : SourceChanged s x)
    (hp : s.phase = .idle) (hu : x.inUse = true) :
    (∀ now, exec (.tick h now) s = .refused .sourceChanged) ∧
      exec (.getframe h) s = .refused .sourceChanged ∧ exec (.resume h) s = .refused .sourceChanged := by
  have hs := session?_of_inUse hx hu
  have hn := hc.sourceOf_eq_none
  exact ⟨fun now => by simp [exec, execTick, hp, hs, onSession_changed hn],
    by simp [exec, execGetframe, hp, hs, onSession_changed hn],
    by simp [exec, execResume, hp, hs, onSession_changed hn]⟩

/-- Settles O47, clause by clause: the decoder for the reserved codes, the fetch and the commands' own check for a command
inside a command, `withSlot` and `onSession` for a source that changed. -/
theorem commandsRefused : Obligations.CommandsRefused := by
  unfold Obligations.CommandsRefused
  refine ⟨fun s c hp hc h5 => step_reservedCommand hp hc h5, fun s c hp hc => ?_, fun s hp => exec_command_busy hp,
    fun s h x hx hch => ⟨step_sourceChanged hx hch, exec_sourceChanged hx hch⟩⟩
  exact step_of_done (fetch_busy hp (by simp [hc]))

end Sys2Proof.Machine
end

section
/-! The steps that have a successor (00_scope R9): each operation either ends or raises an error of the spec, and the invariant
keeps it from getting stuck. -/

namespace Sys2Proof.Machine

/-! ## Outcomes with a successor -/

/-- The outcome is a next state: no fault and no refusal. -/
def Proceeds (o : Host.Outcome State Fault Refusal) : Prop := ∃ t, o = .next t

@[simp] theorem proceeds_next (t : State) : Proceeds (.next t) := ⟨t, rfl⟩

theorem goes_iff (s : State) : s.Goes ↔ Proceeds (step s) := Iff.rfl

/-- An operation on a session does not get stuck, and if it raises nothing its value meets `P`. -/
def Res.Ensures {α : Type} (P : α → Prop) : Res α → Prop
  | .ok a => P a
  | .raised _ _ => True
  | .stuck _ => False

@[simp] theorem ensures_ok {α : Type} (P : α → Prop) (a : α) : (Res.ok a).Ensures P ↔ P a := Iff.rfl

@[simp] theorem ensures_raised {α : Type} (P : α → Prop) (e : ErrCode) (x : Session) :
    (Res.raised e x : Res α).Ensures P := trivial

theorem Res.Ensures.andThen {α β : Type} {P : α → Prop} {Q : β → Prop} {r : Res α} {k : α → Res β}
    (hr : r.Ensures P) (hk : ∀ a, P a → (k a).Ensures Q) : (r.andThen k).Ensures Q := by
  cases r with
  | ok a => exact hk a hr
  | raised e x => trivial
  | stuck f => exact hr.elim

theorem Res.Ensures.mono {α : Type} {P Q : α → Prop} {r : Res α} (hr : r.Ensures P) (hPQ : ∀ a, P a → Q a) :
    r.Ensures Q := by
  cases r with
  | ok a => exact hPQ a hr
  | raised e x => trivial
  | stuck f => exact hr.elim

theorem commit_proceeds {P : Session → Prop} {r : Res Session} (hr : r.Ensures P) (s : State) (h : Nat) (p : Phase) :
    Proceeds (commit s h p r) := by
  cases r with
  | ok x => simp
  | raised e x => simp
  | stuck f => exact hr.elim

theorem endChunk_proceeds {P : Session → Prop} {r : Res Session} (hr : r.Ensures P) (s : State) (h : Nat) :
    Proceeds (endChunk s h r) := by
  cases r with
  | ok x => simp
  | raised e x => simp
  | stuck f => exact hr.elim

/-! ## The address table (43_quadtree_video R180) -/

/-- The blocks of an address table lie inside the w x h area: whole nodes of five entries, the first of each the corner of
an 8x8 block, all of them corners of 4x4 blocks. -/
structure BlocksInside (w h : Nat) (l : List (Nat × Nat)) : Prop where
  nodes : 5 ∣ l.length
  node : ∀ (i : Nat) (e : Nat × Nat), l[5 * i]? = some e → e.1 + 8 ≤ w ∧ e.2 + 8 ≤ h
  child : ∀ e ∈ l, e.1 + 4 ≤ w ∧ e.2 + 4 ≤ h

theorem BlocksInside.nil (w h : Nat) : BlocksInside w h [] := ⟨by simp, by simp, by simp⟩

theorem BlocksInside.append {w h : Nat} {l m : List (Nat × Nat)} (hl : BlocksInside w h l) (hm : BlocksInside w h m) :
    BlocksInside w h (l ++ m) where
  nodes := by rw [List.length_append]; exact dvd_add hl.nodes hm.nodes
  node i e he := by
    obtain ⟨k, hk⟩ := hl.nodes
    by_cases hi : 5 * i < l.length
    · exact hl.node i e (by rwa [List.getElem?_append_left hi] at he)
    · rw [List.getElem?_append_right (by omega), hk, ← Nat.mul_sub] at he
      exact hm.node _ e he
  child e he := (List.mem_append.mp he).elim (hl.child e) (hm.child e)

theorem BlocksInside.flatMap {α : Type} {w h : Nat} {f : α → List (Nat × Nat)} (hf : ∀ a, BlocksInside w h (f a))
    (l : List α) : BlocksInside w h (l.flatMap f) := by
  induction l with
  | nil => exact .nil w h
  | cons a t ih => rw [List.flatMap_cons]; exact (hf a).append ih

theorem blocksInside_nodeEntries (w h x y : Nat) : BlocksInside w h (nodeEntries w h x y) := by
  by_cases hin : x + 8 ≤ w ∧ y + 8 ≤ h
  · rw [nodeEntries, if_pos hin]
    refine ⟨by simp, fun i e he => ?_, fun e he => ?_⟩
    · cases i with
      | zero => cases he; exact hin
      | succ i => simp [Nat.mul_succ] at he
    · simp only [List.mem_cons, List.not_mem_nil, or_false] at he
      rcases he with rfl | rfl | rfl | rfl | rfl <;> simp only <;> omega
  · rw [nodeEntries, if_neg hin]; exact .nil w h

theorem blocksInside_genTable (p : Params) (w h : Nat) : BlocksInside w h (genTable p w h) :=
  .flatMap (fun _ => .flatMap (fun _ => .flatMap (fun _ => blocksInside_nodeEntries _ _ _ _) _) _) _

/-- Entry `i` of AT is the corner of an n x n block inside the W x H area. -/
def Session.HasBlock (x : Session) (n i : Nat) : Prop :=
  ∃ e, x.addrTable[i]? = some e ∧ e.1 + n ≤ x.w.toNat ∧ e.2 + n ≤ x.h.toNat

/-! ## The video opcodes -/

/-- What an opcode needs so that it can raise an error but not get stuck: the payload of the chunk, a tile below each count,
the whole motion table, and the blocks of the node at LEAF inside the frame. -/
structure Session.OpcodeReady (x : Session) : Prop where
  payload : x.payload.length = x.cLen.toNat
  tiles2 : x.n2.toNat ≤ x.cb2.length
  tiles4 : x.n4.toNat ≤ x.cb4.length
  tiles8 : x.n4.toNat ≤ x.cb8.length
  motion : x.mcomp.length = 256
  node : x.HasBlock 8 (5 * x.leaf)
  child : ∀ j : Fin 4, x.HasBlock 4 (5 * x.leaf + 1 + j.val)

/-- `y` is `x` after operand bytes were read and blocks stored: the rest of the session is unchanged. -/
def Session.DrawnTo (x y : Session) : Prop := ∃ p f, y = ({ x with pptr := p } : Session).setBank x.wr f

theorem Session.drawnTo_of_setBank {x y : Session} {p : BitVec 17}
    (hy : ∃ f, y = ({ x with pptr := p } : Session).setBank x.wr f) : x.DrawnTo y := ⟨p, hy⟩

theorem Session.DrawnTo.size {x y : Session} (hd : x.DrawnTo y) : y.w = x.w ∧ y.h = x.h := by
  obtain ⟨p, f, rfl⟩ := hd; simp

theorem Session.DrawnTo.ready {x y : Session} (hd : x.DrawnTo y) (hx : x.OpcodeReady) : y.OpcodeReady := by
  obtain ⟨p, f, rfl⟩ := hd
  obtain ⟨hpay, h2, h4, h8, hm, hn, hc⟩ := hx
  exact ⟨by simpa, by simpa, by simpa, by simpa, by simpa, by simpa [Session.HasBlock] using hn,
    by simpa [Session.HasBlock] using hc⟩

theorem nextOpcode_ensures {x : Session} (hpay : x.payload.length = x.cLen.toNat) :
    (nextOpcode x).Ensures fun ox => ∃ w p n, ox.2 = { x with opw := w, pptr := p, opn := n } := by
  rcases nextOpcode_cases x with ⟨-, h⟩ | ⟨-, -, h⟩ | ⟨-, hl, ⟨b0, b1, -, -, h⟩ | ⟨hs, -⟩⟩
  · rw [h]; exact ⟨_, _, _, rfl⟩
  · simp [h]
  · rw [h]; exact ⟨_, _, _, rfl⟩
  · omega

theorem nextByte_ensures {x : Session} (hpay : x.payload.length = x.cLen.toNat) :
    (nextByte x).Ensures fun bx => ∃ p, bx.2 = { x with pptr := p } := by
  rcases nextByte_cases x with ⟨-, h⟩ | ⟨hl, ⟨b, -, h⟩ | ⟨hs, -⟩⟩
  · simp [h]
  · rw [h]; exact ⟨_, rfl⟩
  · rw [List.getElem?_eq_none_iff] at hs; omega

theorem tileLookup_ensures {x : Session} {cb : List Tile} {n : BitVec 9} (hcb : n.toNat ≤ cb.length) (k : Byte) :
    (tileLookup x cb n k).Ensures fun _ => True := by
  rcases tileLookup_cases x cb n k with ⟨-, h⟩ | ⟨hk, ⟨t, -, h⟩ | ⟨hs, -⟩⟩
  · simp [h]
  · simp [h]
  · rw [List.getElem?_eq_none_iff] at hs; omega

theorem motionLookup_ensures {x : Session} (hm : x.mcomp.length = 256) (b : Byte) :
    (motionLookup x b).Ensures fun _ => True := by
  rcases motionLookup_cases x b with ⟨m, -, h⟩ | ⟨hs, -⟩
  · simp [h]
  · rw [List.getElem?_eq_none_iff] at hs; omega

theorem tableEntry_ensures {x : Session} {n i : Nat} (hb : x.HasBlock n i) :
    (tableEntry x i).Ensures fun e => e.1 + n ≤ x.w.toNat ∧ e.2 + n ≤ x.h.toNat := by
  obtain ⟨e, he, hfit⟩ := hb
  simpa [tableEntry, he] using hfit

theorem storeBlock_ensures {x : Session} {n col row : Nat} (hc : col + n ≤ x.w.toNat) (hr : row + n ≤ x.h.toNat)
    (byte : Nat → Nat → Nat → Byte) : (storeBlock x n col row byte).Ensures fun y => ∃ f, y = x.setBank x.wr f := by
  rcases storeBlock_cases x n col row byte with ⟨hout, -⟩ | ⟨-, -, f, h, -⟩
  · exact absurd ⟨hc, hr⟩ hout
  · rw [h]; exact ⟨f, rfl⟩

theorem motionFrom_ensures {x : Session} {n col row : Nat} (hc : col + n ≤ x.w.toNat) (hr : row + n ≤ x.h.toNat)
    (m : Int × Int) : (motionFrom x n col row m).Ensures fun y => ∃ f, y = x.setBank x.wr f := by
  rcases motionFrom_cases x n col row m with ⟨-, h⟩ | ⟨sx, sy, -, -, -, -, h⟩
  · simp [h]
  · rw [h]; exact storeBlock_ensures hc hr _

theorem motionBlock_ensures {x : Session} {n i : Nat} (hx : x.OpcodeReady) (hb : x.HasBlock n i) :
    (motionBlock n i x).Ensures x.DrawnTo := by
  refine (nextByte_ensures hx.payload).andThen ?_
  rintro ⟨b, y⟩ ⟨p, rfl⟩
  refine (tableEntry_ensures hb).andThen fun e he => ?_
  refine (motionLookup_ensures hx.motion b).andThen fun m _ => ?_
  exact (motionFrom_ensures (x := { x with pptr := p }) he.1 he.2 m).mono fun _ => Session.drawnTo_of_setBank

theorem vqBlock_ensures {x : Session} {n i : Nat} {cb : List Tile} (hx : x.OpcodeReady) (hcb : x.n4.toNat ≤ cb.length)
    (hb : x.HasBlock n i) : (vqBlock n i cb x).Ensures x.DrawnTo := by
  refine (nextByte_ensures hx.payload).andThen ?_
  rintro ⟨k, y⟩ ⟨p, rfl⟩
  refine (tileLookup_ensures hcb k).andThen fun t _ => ?_
  refine (tableEntry_ensures hb).andThen fun e he => ?_
  exact (storeBlock_ensures (x := { x with pptr := p }) he.1 he.2 _).mono fun _ => Session.drawnTo_of_setBank

theorem quadBlock_ensures {x : Session} {col row : Nat} (hx : x.OpcodeReady) (hc : col + 2 ≤ x.w.toNat)
    (hr : row + 2 ≤ x.h.toNat) : (quadBlock col row x).Ensures x.DrawnTo := by
  refine (nextByte_ensures hx.payload).andThen ?_
  rintro ⟨k, y⟩ ⟨p, rfl⟩
  refine (tileLookup_ensures hx.tiles2 k).andThen fun t _ => ?_
  exact (storeBlock_ensures (x := { x with pptr := p }) hc hr _).mono fun _ => Session.drawnTo_of_setBank

/-- The four quadrants of a 4x4 block inside the frame are stored inside it (43_quadtree_video R193). -/
theorem quadBlocks_ensures {x : Session} {i : Nat} (hx : x.OpcodeReady) (hb : x.HasBlock 4 i) :
    (quadBlocks i x).Ensures fun _ => True := by
  refine (tableEntry_ensures hb).andThen fun ⟨col, row⟩ ⟨hc, hr⟩ => ?_
  simp only at hc hr
  refine (quadBlock_ensures hx (by omega) (by omega)).andThen fun x1 h1 => ?_
  have r1 := h1.ready hx
  obtain ⟨w1, v1⟩ := h1.size
  refine (quadBlock_ensures r1 (by rw [w1]; omega) (by rw [v1]; omega)).andThen fun x2 h2 => ?_
  have r2 := h2.ready r1
  obtain ⟨w2, v2⟩ := h2.size
  refine (quadBlock_ensures r2 (by rw [w2, w1]; omega) (by rw [v2, v1]; omega)).andThen fun x3 h3 => ?_
  have r3 := h3.ready r2
  obtain ⟨w3, v3⟩ := h3.size
  exact (quadBlock_ensures r3 (by rw [w3, w2, w1]; omega) (by rw [v3, v2, v1]; omega)).mono fun _ _ => trivial

theorem atNode_proceeds {s : State} {h : Nat} {x : Session} {k : Session → Res Session} {P : Session → Prop}
    (hp : s.phase = .video h .node) (hx : s.slots[h]? = some x) (hk : (k x).Ensures P) (next : Nat → Phase) :
    Proceeds (atNode s next k) := by
  simpa [atNode, hp, hx] using commit_proceeds hk s h (next h)

theorem atChild_proceeds {s : State} {h : Nat} {j : Fin 4} {x : Session} {k : Fin 4 → Session → Res Session}
    {P : Session → Prop} (hp : s.phase = .video h (.child j)) (hx : s.slots[h]? = some x) (hk : (k j x).Ensures P) :
    Proceeds (atChild s k) := by
  have hleaf : ((k j x).andThen fun x1 => .ok (leafAfterChild j x1)).Ensures fun _ => True :=
    hk.andThen fun _ _ => by simp
  simpa [atChild, hp, hx] using commit_proceeds hleaf s h (afterChild h j)

theorem decodeQop8_cases (code : BitVec 2) :
    decodeQop8 code = .skip8 ∨ decodeQop8 code = .mot8 ∨ decodeQop8 code = .vq8 ∨ decodeQop8 code = .sub8 := by
  revert code; decide

theorem decodeQop4_cases (code : BitVec 2) :
    decodeQop4 code = .skip4 ∨ decodeQop4 code = .mot4 ∨ decodeQop4 code = .vq4 ∨ decodeQop4 code = .quad2 := by
  revert code; decide

theorem exec_qop8_proceeds {s : State} {h : Nat} {x : Session} (hp : s.phase = .video h .node)
    (hx : s.slots[h]? = some x) (hr : x.OpcodeReady) (code : BitVec 2) : Proceeds (exec (decodeQop8 code) s) := by
  have hleaf : ∀ {r : Res Session}, r.Ensures x.DrawnTo →
      (r.andThen fun x1 => .ok (nextLeaf x1)).Ensures fun _ => True := fun h => h.andThen fun _ _ => by simp
  rcases decodeQop8_cases code with hi | hi | hi | hi <;> rw [hi]
  · exact atNode_proceeds (k := fun x => .ok (nextLeaf x)) (P := fun _ => True) hp hx trivial _
  · exact atNode_proceeds hp hx (hleaf (motionBlock_ensures hr hr.node)) _
  · exact atNode_proceeds hp hx (hleaf (vqBlock_ensures hr hr.tiles8 hr.node)) _
  · exact atNode_proceeds (k := .ok) (P := fun _ => True) hp hx trivial _

theorem exec_qop4_proceeds {s : State} {h : Nat} {j : Fin 4} {x : Session} (hp : s.phase = .video h (.child j))
    (hx : s.slots[h]? = some x) (hr : x.OpcodeReady) (code : BitVec 2) : Proceeds (exec (decodeQop4 code) s) := by
  rcases decodeQop4_cases code with hi | hi | hi | hi <;> rw [hi]
  · exact atChild_proceeds (k := fun _ => .ok) (P := fun _ => True) hp hx trivial
  · exact atChild_proceeds hp hx (motionBlock_ensures hr (hr.child j))
  · exact atChild_proceeds hp hx (vqBlock_ensures hr hr.tiles4 (hr.child j))
  · exact atChild_proceeds hp hx (quadBlocks_ensures hr (hr.child j))

/-! ## The chunks -/

/-- INFO finds its four bytes in the payload when C_LEN says they are there. -/
theorem doInfo_ensures {x : Session} (hpay : x.payload.length = x.cLen.toNat) (p : Params) :
    (doInfo p x).Ensures fun _ => True := by
  rw [doInfo]
  split
  · simp
  · next hlen =>
    split
    · simp only; split_ifs <;> simp
    · next hshort =>
      match hpl : x.payload, hpay with
      | b0 :: b1 :: b2 :: b3 :: t, _ => exact (hshort b0 b1 b2 b3 t hpl).elim
      | [], hn | [_], hn | [_, _], hn | [_, _, _], hn => simp at hn; omega

theorem doCodebook_ensures (p : Params) (x : Session) : (doCodebook p x).Ensures fun _ => True := by
  simp only [doCodebook]
  split_ifs <;> simp

theorem atChunk_proceeds {s : State} {h : Nat} {x : Session} {src : Source} {tag : BitVec 16} {hd : ChunkHdr}
    {k : Nat → Session → Host.Outcome State Fault Refusal} (hp : s.phase = .fetch h) (hx : s.slots[h]? = some x)
    (hs : sourceOf s x = some src) (hk : ∀ y : Session, y.payload.length = y.cLen.toNat → Proceeds (k h y)) :
    Proceeds (atChunk s tag hd k) := by
  rcases openChunk_cases tag hd x with ⟨-, ho⟩ | ⟨-, -, ho⟩ | ⟨-, -, -, ho⟩ | ⟨hlen, hfit, -⟩
  · simp [atChunk, hp, hx, ho]
  · simp [atChunk, hp, hx, ho]
  · simp [atChunk, hp, hx, ho]
  · rw [atChunk_eq tag hd k hp hx hlen hfit hs]
    exact hk _ (by simp)

theorem decodeTag_cases (p : Params) (tag : BitVec 16) (hd : ChunkHdr) :
    decodeTag p tag hd = .error (.unknownTag tag) ∨
      ∃ i ∈ [Instr.info hd, .codebook hd, .video hd, .hang hd, .audioMono hd, .audioStereo hd, .packet hd],
        decodeTag p tag hd = .ok i := by
  rw [decodeTag]; split_ifs <;> simp

/-- Every chunk proceeds where a chunk is due. -/
theorem exec_chunk_proceeds {s : State} {h : Nat} {x : Session} {src : Source} {hd : ChunkHdr} {i : Instr}
    (hp : s.phase = .fetch h) (hx : s.slots[h]? = some x) (hs : sourceOf s x = some src)
    (hi : i ∈ [Instr.info hd, .codebook hd, .video hd, .hang hd, .audioMono hd, .audioStereo hd, .packet hd]) :
    Proceeds (exec i s) := by
  simp only [List.mem_cons, List.not_mem_nil, or_false] at hi
  rcases hi with rfl | rfl | rfl | rfl | rfl | rfl | rfl <;>
    simp only [exec, execInfo, execCodebook, execVideo, execHang, execAudioMono, execAudioStereo, execPacket] <;>
    refine atChunk_proceeds hp hx hs fun y hy => ?_
  · exact endChunk_proceeds (doInfo_ensures hy _) s h
  · exact endChunk_proceeds (doCodebook_ensures _ y) s h
  · simp
  · simp
  · split_ifs <;> simp
  · split_ifs <;> simp
  · simp

theorem chunkFields_of_length {bytes : List Byte} (hl : bytes.length = 8) :
    ∃ tag hd, chunkFields bytes = some (tag, hd) := by
  match bytes, hl with
  | [_, _, _, _, _, _, _, _], _ => exact ⟨_, _, rfl⟩

theorem decodeFileHdr_of_length {bytes : List Byte} (hl : bytes.length = 8) :
    ∃ magic unused fps, decodeFileHdr bytes = .ok (.filehdr magic unused fps) := by
  match bytes, hl with
  | [_, _, _, _, _, _, _, _], _ => exact ⟨_, _, _, rfl⟩

theorem exec_filehdr_proceeds {s : State} {h : Nat} {restart : Bool} {x : Session} (hp : s.phase = .header h restart)
    (hx : s.slots[h]? = some x) (magic : BitVec 16) (unused : BitVec 32) (fps : BitVec 16) :
    Proceeds (exec (.filehdr magic unused fps) s) := by
  simp only [exec, execFilehdr, hp, hx]
  rcases openHeader_cases x with ⟨-, ho⟩ | ⟨-, ho⟩ <;> rw [ho]
  · simp
  · rcases loadHeader_cases s.cfg magic fps { x with offset := 0, inmem := decide (x.rawn ≠ 0) } with
      ⟨-, hl⟩ | ⟨-, hl⟩ <;> rw [andThen_ok, hl]
    · simp
    · cases restart <;> simp

/-! ## Every phase -/

theorem State.Inv.live {s : State} (hi : s.Inv) {h : Nat} {x : Session} (hx : s.slots[h]? = some x)
    (hu : x.inUse = true) : x.Live s.cfg s :=
  (hi.legal x (List.mem_of_getElem? hx)).1 hu

/-- Every session in use has the source START opened. -/
def State.SourcesKept (s : State) : Prop :=
  ∀ ⦃h : Nat⦄ ⦃x : Session⦄, s.slots[h]? = some x → x.inUse = true → ∃ src, sourceOf s x = some src

theorem State.Inv.sourcesKept {s : State} (hi : s.Inv) : s.SourcesKept := fun _ _ hx hu =>
  Option.isSome_iff_exists.mp (hi.live hx hu).source

/-- Inside the VIDEO chunk of a legal session, at a node, no opcode can get stuck. -/
theorem Session.InVideo.opcodeReady {p : Params} {s : State} {x : Session} {pos : VideoPos} (hv : x.InVideo pos)
    (hl : x.Live p s) (hleaf : x.leaf < x.atN) : x.OpcodeReady := by
  obtain ⟨htab, hlen⟩ := hl.table hv.valid
  obtain ⟨h2, h4, h8⟩ := hl.tiles (by simp [hv.chunk.status])
  have hin : BlocksInside x.w.toNat x.h.toNat x.addrTable := htab ▸ blocksInside_genTable _ _ _
  have hentry : ∀ i, i < x.addrTable.length → ∃ e, x.addrTable[i]? = some e := fun i hi =>
    ⟨_, List.getElem?_eq_getElem hi⟩
  refine ⟨hv.chunk.payload, h2, h4, h8, by simp [hv.motion, motionTable], ?_, fun j => ?_⟩
  · obtain ⟨e, he⟩ := hentry (5 * x.leaf) (by omega)
    exact ⟨e, he, hin.node _ e he⟩
  · obtain ⟨e, he⟩ := hentry (5 * x.leaf + 1 + j.val) (by omega)
    exact ⟨e, he, hin.child e (List.mem_of_getElem? he)⟩

/-- Where an opcode is due it is taken, or the payload is truncated; what it decodes to, `dec` of it, then proceeds. -/
theorem fetchOpcode_proceeds {s : State} {h : Nat} {x : Session} {enc : BitVec 2 → Encoded} {dec : BitVec 2 → Instr}
    (hf : fetch s = fetchOpcode s h x enc) (hdec : ∀ p code, decode p (enc code) = .ok (dec code))
    (hr : x.OpcodeReady)
    (hexec : ∀ (y : Session) (code : BitVec 2), y.OpcodeReady → Proceeds (exec (dec code) (s.setSlot h y))) :
    Proceeds (step s) := by
  have hn := nextOpcode_ensures hr.payload
  cases ho : nextOpcode x with
  | ok ox =>
    rw [ho] at hn
    obtain ⟨w, p, n, hy⟩ := hn
    rw [step_of_instr (by rw [hf, fetchOpcode, ho]) (hdec _ _)]
    have hr' : ox.2.OpcodeReady := by
      obtain ⟨hpay, h2, h4, h8, hm, hnode, hc⟩ := hr
      rw [hy]; exact ⟨hpay, h2, h4, h8, hm, hnode, hc⟩
    exact hexec ox.2 ox.1 hr'
  | raised e x1 => rw [step_of_done (by rw [hf, fetchOpcode, ho])]; simp
  | stuck f => rw [ho] at hn; exact hn.elim

theorem exec_start_proceeds {s : State} (hp : s.phase = .idle) {srcId : Nat}
    (hlen : ∀ src ∈ s.sources, src.id = srcId → src.len < 2 ^ 32) (x y w h : BitVec 32) (flags : BitVec 4)
    (now : BitVec 48) : Proceeds (exec (.start srcId x y w h flags now) s) := by
  simp only [exec, execStart, if_pos hp]
  split
  · simp
  split
  · simp
  next src ho =>
    obtain ⟨hmem, hid⟩ := srcOpen_eq_some ho
    rw [if_neg (Nat.not_le.mpr (hlen src hmem hid))]
    split_ifs <;> simp

/-- TICK, STOP, GETFRAME and RESUME of any handle proceed on an idle machine whose sources are kept. -/
theorem exec_session_command_proceeds {s : State} (hp : s.phase = .idle) (hk : s.SourcesKept) (handle : Nat) :
    (∀ now, Proceeds (exec (.tick handle now) s)) ∧ Proceeds (exec (.stop handle) s) ∧
      Proceeds (exec (.getframe handle) s) ∧ Proceeds (exec (.resume handle) s) := by
  simp only [exec, execTick, execStop, execGetframe, execResume, if_pos hp]
  cases hx : session? s handle with
  | none => simp
  | some x =>
    obtain ⟨hslot, hu⟩ := session?_eq_some hx
    obtain ⟨src, hs⟩ := hk hslot hu
    simp only [onSession_ok hs, proceeds_next, and_true]
    intro now
    split_ifs <;> simp

theorem step_command_proceeds {s : State} {c : PortWord} (hk : s.SourcesKept) (hp : s.phase = .idle)
    (hc : s.port = some c) (hcode : c.code.toNat ≤ 4)
    (hlen : c.code = 0 → ∀ src ∈ s.sources, src.id = c.srcId → src.len < 2 ^ 32) : Proceeds (step s) := by
  have hf : fetch s = .instr (.hostCmd c) { s with port := none } := by simp [fetch_idle hp, fetchCommand, hc]
  obtain ⟨htick, hstop, hgetframe, hresume⟩ :=
    exec_session_command_proceeds (s := { s with port := none }) hp hk c.handle
  rcases decodeCommand_cases hcode with ⟨h0, hd⟩ | hd | hd | hd | hd <;> rw [step_of_instr hf hd]
  · exact exec_start_proceeds (s := { s with port := none }) hp (hlen h0) _ _ _ _ _ _
  · exact htick _
  · exact hstop
  · exact hgetframe
  · exact hresume

section InCommand

variable {s : State} {h : Nat} {x : Session} {src : Source} (hq : s.port = none) (hx : s.slots[h]? = some x)
  (hs : sourceOf s x = some src)

include hq hx hs

/-- With an empty port and its source kept, a slot finds what the place of its phase holds. -/
theorem fetch_slot {k : Source → Session → Fetched} (hk : fetchPlace s = withSlot s h k) : fetch s = k src x := by
  rw [fetch_quiet hq, hk, withSlot_ok hx hs]

theorem step_header_proceeds {restart : Bool} (hp : s.phase = .header h restart) : Proceeds (step s) := by
  have hf : fetch s = fetchHeader s h src x := fetch_slot hq hx hs (by rw [fetchPlace, hp])
  rcases openHeader_cases x with ⟨-, ho⟩ | ⟨-, ho⟩
  · rw [step_of_done (by rw [hf, fetchHeader, ho])]; simp
  · obtain ⟨magic, unused, fps, hd⟩ :=
      decodeFileHdr_of_length (bytes := (srcRead src 0 Config.fileHdr).take 8) (by simp [Config.fileHdr])
    have hf' : fetch s = .instr (.fileHdr ((srcRead src 0 Config.fileHdr).take 8)) s := by rw [hf, fetchHeader, ho]
    rw [step_of_instr hf' hd]
    exact exec_filehdr_proceeds hp hx _ _ _

theorem step_loop_proceeds (hp : s.phase = .loop h) : Proceeds (step s) := by
  have hf : fetch s = .done (.next (loopHead s h x)) := fetch_slot hq hx hs (by rw [fetchPlace, hp])
  rw [step_of_done hf]; simp

theorem step_fetch_proceeds (hp : s.phase = .fetch h) : Proceeds (step s) := by
  have hf : fetch s = fetchChunk s h src x := fetch_slot hq hx hs (by rw [fetchPlace, hp])
  rw [fetchChunk] at hf
  split at hf
  · rw [step_of_done hf]; simp
  · obtain ⟨tag, hd, hfields⟩ := chunkFields_of_length (srcRead_length src x.offset.toNat 8)
    have hdec : ∀ p, decode p (.chunkHdr (srcRead src x.offset.toNat 8)) = decodeTag p tag hd := fun p => by
      simp [decode, decodeChunkHdr, hfields]
    rcases decodeTag_cases s.cfg tag hd with htag | ⟨i, hmem, htag⟩
    · rw [step_of_illegal hf ((hdec _).trans htag)]
      simp only [illegal, hfields]
      exact atChunk_proceeds hp hx hs fun y _ => by simp
    · rw [step_of_instr hf ((hdec _).trans htag)]
      exact exec_chunk_proceeds hp hx hs hmem

theorem step_video_proceeds {pos : VideoPos} (hp : s.phase = .video h pos) (hl : x.Live s.cfg s)
    (hv : x.InVideo pos) : Proceeds (step s) := by
  have hf : fetch s = fetchVideo s h pos x := fetch_slot hq hx hs (by rw [fetchPlace, hp])
  have hlt : h < s.slots.length := (List.getElem?_eq_some_iff.mp hx).1
  cases pos with
  | node =>
    rw [fetchVideo] at hf
    split at hf
    · next hleaf =>
      exact fetchOpcode_proceeds hf (fun _ _ => rfl) (hv.opcodeReady hl hleaf) fun y code hr =>
        exec_qop8_proceeds (s := s.setSlot h y) hp (slots_setSlot_self s h y hlt) hr code
    · rw [step_of_done hf]; simp
  | child j =>
    exact fetchOpcode_proceeds hf (fun _ _ => rfl) (hv.opcodeReady hl (hv.child (by simp))) fun y code hr =>
      exec_qop4_proceeds (s := s.setSlot h y) hp (slots_setSlot_self s h y hlt) hr code

theorem step_audio_proceeds {stereo : Bool} (hp : s.phase = .audio h stereo) (ha : x.InAudio stereo) : Proceeds (step s) := by
  have hf : fetch s = fetchAudio s h stereo x := fetch_slot hq hx hs (by rw [fetchPlace, hp])
  rw [fetchAudio] at hf
  split at hf
  · next hpos =>
    have hin : x.audioPos < x.payload.length := by
      have hcount : deltaCount stereo x ≤ x.cLen.toNat := by rw [deltaCount]; split_ifs <;> omega
      rw [ha.chunk.payload]; omega
    rw [List.getElem?_eq_getElem hin] at hf
    rw [step_of_instr hf rfl]
    simp [exec, execDelta, hp, hx]
  · rw [step_of_done hf]; simp

end InCommand

/-- Settles O53, by the phase: on an idle machine the commands, inside a command the step of the phase, whose slot the
invariant describes. -/
theorem everyStepGoes : Obligations.EveryStepGoes := by
  unfold Obligations.EveryStepGoes
  intro s hi hobeys
  rw [goes_iff]
  have hquiet : s.phase ≠ .idle → s.port = none := fun hp =>
    Option.eq_none_iff_forall_ne_some.mpr fun c hc => hp (hobeys c hc).1
  have hlegal := hi.phase
  cases hp : s.phase <;> rw [hp] at hlegal hquiet
  case idle =>
    cases hc : s.port with
    | none => rw [step_of_done (by rw [fetch_idle hp, fetchCommand, hc])]; simp
    | some c =>
      obtain ⟨-, hcode, hlen⟩ := hobeys c hc
      exact step_command_proceeds hi.sourcesKept hp hc hcode hlen
  case header h restart =>
    obtain ⟨x, hx, hu, -⟩ := hlegal
    obtain ⟨src, hs⟩ := hi.sourcesKept hx hu
    exact step_header_proceeds (hquiet (by simp)) hx hs hp
  case loop h =>
    obtain ⟨x, hx, hu⟩ := hlegal
    obtain ⟨src, hs⟩ := hi.sourcesKept hx hu
    exact step_loop_proceeds (hquiet (by simp)) hx hs hp
  case fetch h =>
    obtain ⟨x, hx, hu, -⟩ := hlegal
    obtain ⟨src, hs⟩ := hi.sourcesKept hx hu
    exact step_fetch_proceeds (hquiet (by simp)) hx hs hp
  case video h pos =>
    obtain ⟨x, hx, hv⟩ := hlegal
    have hu := hv.chunk.inUse
    obtain ⟨src, hs⟩ := hi.sourcesKept hx hu
    exact step_video_proceeds (hquiet (by simp)) hx hs hp (hi.live hx hu) hv
  case audio h stereo =>
    obtain ⟨x, hx, ha⟩ := hlegal
    obtain ⟨src, hs⟩ := hi.sourcesKept hx ha.chunk.inUse
    exact step_audio_proceeds (hquiet (by simp)) hx hs hp ha

end Sys2Proof.Machine
end

section
/-! The small statements about the state: the reset state (70_reset_and_hazards R320), the slot START resets (10_state R44)
and trap entry (60_exceptions R290). -/

namespace Sys2Proof.Machine

/-! ## Hardware reset -/

/-- Every slot of the reset state holds the middle column of 10_state R44. -/
theorem mem_reset_slots {x : Session} (hx : x ∈ State.reset.slots) : ∃ k, x = Session.hardwareReset k := by
  obtain ⟨i, -, rfl⟩ := List.mem_map.mp hx
  exact ⟨2 * i, rfl⟩

/-- An idle machine without a command stands still (60_exceptions R299). -/
theorem step_of_idle_quiet {s : State} (hp : s.phase = .idle) (hq : s.port = none) : step s = .next s :=
  step_of_done (by rw [fetch_idle hp, fetchCommand, hq])

/-- Settles O50: the slots are those of `Session.hardwareReset`, and with no command on the port the machine is still. -/
theorem resetLeaves : Obligations.ResetLeaves := by
  unfold Obligations.ResetLeaves
  refine ⟨by simp [State.reset], fun x hx => ?_, step_of_idle_quiet rfl rfl⟩
  obtain ⟨k, rfl⟩ := mem_reset_slots hx
  exact ⟨rfl, rfl, rfl, rfl, rfl, rfl⟩

/-- Settles O51: the reference parameters are legal, and every slot is free with unwritten banks. -/
theorem invHoldsAtReset : Obligations.InvHoldsAtReset where
  cfg := by decide
  slots := by simp [State.reset]
  leases := by simp [State.reset]
  legal x hx := by
    obtain ⟨hbank0, hbank1⟩ := reset_memories_wf x hx
    obtain ⟨k, rfl⟩ := mem_reset_slots hx
    exact ⟨nofun, fun _ => ⟨rfl, rfl, hbank0, hbank1⟩⟩
  phase := trivial

/-! ## START -/

/-- START's slot is the lowest free one (44_scheduler R221 (1)). -/
theorem findIdx?_free {l : List Session} {i : Nat} {old : Session} (hi : l[i]? = some old) (hfree : old.inUse = false)
    (hlow : ∀ j < i, ∀ z, l[j]? = some z → z.inUse = true) : l.findIdx? (fun slot => !slot.inUse) = some i := by
  obtain ⟨hlt, rfl⟩ := List.getElem?_eq_some_iff.mp hi
  refine List.findIdx?_eq_some_iff_getElem.mpr ⟨hlt, by simp [hfree], fun j hj => ?_⟩
  simp [hlow j hj _ (List.getElem?_eq_getElem (hj.trans hlt))]

/-- The source START opens is the source of the session it makes (20_memory R74). -/
theorem sourceOf_startSession {s : State} {srcId : Nat} {src : Source} (ho : srcOpen s srcId = some src)
    (hlen : src.len < 2 ^ 32) (p : Params) (k : Nat) (x y w h : BitVec 32) (flags : BitVec 4) (now : BitVec 48) :
    sourceOf s (startSession p k src x y w h flags now) = some src := by
  have hid : src.id = srcId := (srcOpen_eq_some ho).2
  exact sourceOf_eq_some.mpr ⟨(congrArg (srcOpen s) hid).trans ho, (Nat.mod_eq_of_lt hlen).symm, sameBytes_self _⟩

/-- START with a free slot and a source of legal length stores the reset session there; the header parse is next
(44_scheduler R221 (1) to (3)). -/
theorem exec_start_ok {s : State} {i srcId : Nat} {src : Source} (hp : s.phase = .idle)
    (hslot : s.slots.findIdx? (fun slot => !slot.inUse) = some i) (ho : srcOpen s srcId = some src) (hpos : 0 < src.len)
    (hlen : src.len < 2 ^ 32) (x y w h : BitVec 32) (flags : BitVec 4) (now : BitVec 48) :
    exec (.start srcId x y w h flags now) s =
      .next
        { s.setSlot i (startSession s.cfg s.freeCount src x y w h flags now) with
          phase := .header i false
          result := none
          freeCount := s.freeCount + 2 } := by
  simp only [exec, execStart, hp, hslot, ho, if_true, if_neg hpos.ne', if_neg (Nat.not_le.mpr hlen)]

/-- Settles O38: the slot found is the lowest free one, and `startSession` writes the right-hand column of 10_state R44. -/
theorem startResetsTheLowestFreeSlot : Obligations.StartResetsTheLowestFreeSlot := by
  unfold Obligations.StartResetsTheLowestFreeSlot
  intro s i old srcId src x y w h flags now hp hold hfree hlow ho hpos hlen
  refine ⟨startSession s.cfg s.freeCount src x y w h flags now, s.freeCount + 2,
    exec_start_ok hp (findIdx?_free hold hfree hlow) ho hpos hlen x y w h flags now, rfl, rfl, rfl, rfl, rfl, rfl, rfl,
    rfl, (srcOpen_eq_some ho).2, Nat.mod_eq_of_lt hlen, sourceOf_startSession ho hlen _ _ _ _ _ _ _ _, ?_⟩
  and_intros <;> rfl

/-! ## Trap entry -/

/-- A trap stores the session it ends, its command answered (60_exceptions R290); the registers that have no value outside a
chunk are those of a free session (10_state R25). -/
theorem raiseFatal_eq_trapped (s : State) (h : Nat) (code : ErrCode) (x : Session) :
    raiseFatal s h code x =
      { trapped s h code (Config.unspecifiedSession s.freeCount) (s.freeCount + 1) x with
        result := some (trapAnswer s.phase) } := rfl

/-- Outside START's header parse a trap ends a TICK, which returns EndOfStream (60_exceptions R290). -/
theorem trapAnswer_of_ne_header {p : Phase} (hp : ∀ n, p ≠ .header n false) : trapAnswer p = .status .endOfStream := by
  cases p with
  | header n restart =>
    cases restart with
    | false => exact absurd rfl (hp n)
    | true => rfl
  | _ => rfl

/-- Settles O48: `raiseFatal` is the trap entry of R290; what it answers depends on the phase alone. (`trapEntry` itself is
the operation of the model.) -/
theorem trapEntry_holds : Obligations.TrapEntry := by
  unfold Obligations.TrapEntry
  intro s h code x
  refine ⟨fun p hp hne => ?_, fun hp => ?_, ?_⟩
  · exact ⟨_, _, by rw [raiseFatal_eq_trapped, hp, trapAnswer_of_ne_header hne]; rfl⟩
  · exact ⟨_, _, by rw [raiseFatal_eq_trapped, hp, trapAnswer]⟩
  · simp [globalOut]

end Sys2Proof.Machine
end

section
/-! The invariant, session by session: which operations keep a session legal (10_state R32 to R39). -/

namespace Sys2Proof.Machine

/-! ## Surfaces (20_memory R70) -/

theorem Surface.within_unwritten (n k : Nat) : (Surface.unwritten k).within n := ⟨Surface.unwritten_wf k, nofun⟩

theorem Surface.within_writeAll {n : Nat} {f : Surface} {cs : List Host.Cell} (hf : f.within n) (hcs : ∀ c ∈ cs, c.1 < n) :
    (f.writeAll cs).within n :=
  ⟨Surface.writeAll_wf hf.1 cs, fun c hc => (Mem.mem_writeAll hc).elim (hcs c) (hf.2 c)⟩

theorem Surface.within_copyArea {m n : Nat} {dst : Surface} (hd : dst.within n) (hmn : m ≤ n) (src : Surface) :
    (Surface.copyArea m src dst).within n :=
  ⟨Surface.copyArea_wf m src hd.1, fun c hc => (Surface.mem_copyArea hc).elim (fun h => h.trans_le hmn) (hd.2 c)⟩

/-- The bytes of a block inside the W x H area lie inside the area. -/
theorem blockCells_lt_area {x : Session} {n col row : Nat} {byte : Nat → Nat → Nat → Byte} (hc : col + n ≤ x.w.toNat)
    (hr : row + n ≤ x.h.toNat) : ∀ c ∈ blockCells x n col row byte, c.1 < x.area := by
  intro c hmem
  obtain ⟨r, hrn, cc, hcn, i, hi, rfl⟩ := mem_blockCells.mp hmem
  exact pixelOff_lt (by omega) (by omega) hi

section Live

variable {p : Params} {s t : State} {x : Session}

/-! ## Legal sessions -/

/-- Whether a session is legal depends on the state through the sources alone. -/
theorem Session.Live.of_sources (hl : x.Live p s) (hs : t.sources = s.sources) : x.Live p t :=
  { hl with source := by rw [sourceOf_congr hs rfl rfl rfl]; exact hl.source }

theorem Session.Live.legal (hl : x.Live p s) (hu : x.inUse = true) : x.Legal p s :=
  ⟨fun _ => hl, fun hfree => by rw [hu] at hfree; cases hfree⟩

theorem Session.Legal.of_sources (hx : x.Legal p s) (hs : t.sources = s.sources) : x.Legal p t :=
  ⟨fun hu => (hx.1 hu).of_sources hs, hx.2⟩

/-- No error is set outside EndOfStream. -/
theorem Session.Live.err_none (hl : x.Live p s) (hst : x.status ≠ .endOfStream) : x.err = .none :=
  Decidable.not_not.mp fun he => hst (hl.error he)

theorem Session.Live.area_le (hl : x.Live p s) : x.area ≤ surfBytes p x :=
  calc x.area = x.h.toNat * x.w.toNat * x.bpp.bytes := by rw [Session.area, Session.line]; ring
    _ ≤ p.maxH * p.maxW * x.bpp.bytes := Nat.mul_le_mul_right _ (Nat.mul_le_mul hl.height hl.width)
    _ = surfBytes p x := by rw [surfBytes]; ring

theorem Session.Live.bank (hl : x.Live p s) (b : BankId) : (x.bank b).within (surfBytes p x) := by
  cases b
  · exact hl.bank0
  · exact hl.bank1

theorem Session.Live.setBank (hl : x.Live p s) {f : Surface} (hf : f.within (surfBytes p x)) (b : BankId) :
    (x.setBank b f).Live p s := by
  cases b
  · exact { hl with bank0 := hf }
  · exact { hl with bank1 := hf }

theorem Session.Live.trapEntry (hl : x.Live p s) (e : ErrCode) : (trapEntry e x).Live p s :=
  { hl with tiles := fun h => absurd rfl h, frame := nofun, error := fun _ => rfl }

theorem Session.Live.retireChunk (hl : x.Live p s) (k : Nat) : (retireChunk k x).Live p s :=
  { hl with table := fun hv => by simpa [show x.atValid = true from hv] using hl.table hv }

/-- A session outside EndOfStream goes on with another STATUS that is not EndOfStream either. -/
theorem Session.Live.setStatus (hl : x.Live p s) {st : Status} (hst : x.status ≠ .endOfStream) (hne : st ≠ .endOfStream) :
    ({ x with status := st } : Session).Live p s :=
  { hl with
    tiles := fun _ => hl.tiles hst
    frame := fun hf =>
      have ⟨hdisp, _, hw, hh⟩ := hl.frame hf
      ⟨hdisp, hne, hw, hh⟩
    error := fun he => absurd (hl.err_none hst) he }

/-! ## Operations that can raise an error -/

/-- A session in use at which trap entry can happen: whatever the error, it is legal afterwards (60_exceptions R290). -/
def Session.CanTrap (p : Params) (s : State) (x : Session) : Prop :=
  x.inUse = true ∧ ∀ e, (Sys2Proof.Machine.trapEntry e x).Live p s

theorem Session.Live.canTrap (hl : x.Live p s) (hu : x.inUse = true) : x.CanTrap p s := ⟨hu, hl.trapEntry⟩

/-- If an operation goes on, its value meets `P`; if it raises an error, trap entry can happen. -/
def Res.Keeps {α : Type} (p : Params) (s : State) (P : α → Prop) : Res α → Prop
  | .ok a => P a
  | .raised _ x => x.CanTrap p s
  | .stuck _ => True

@[simp] theorem keeps_ok {α : Type} {P : α → Prop} {a : α} : (Res.ok a).Keeps p s P ↔ P a := Iff.rfl

@[simp] theorem keeps_raised {α : Type} {P : α → Prop} {e : ErrCode} :
    (Res.raised e x : Res α).Keeps p s P ↔ x.CanTrap p s := Iff.rfl

@[simp] theorem keeps_stuck {α : Type} {P : α → Prop} {f : Fault} : (Res.stuck f : Res α).Keeps p s P := trivial

theorem Res.Keeps.andThen {α β : Type} {P : α → Prop} {Q : β → Prop} {r : Res α} {k : α → Res β} (hr : r.Keeps p s P)
    (hk : ∀ a, P a → (k a).Keeps p s Q) : (r.andThen k).Keeps p s Q := by
  cases r with
  | ok a => exact hk a hr
  | raised e x => exact hr
  | stuck f => trivial

/-! ## The video opcodes -/

/-- A legal session whose VIDEO chunk has a node left: an opcode works on it (43_quadtree_video R183). -/
structure Session.AtOpcode (p : Params) (s : State) (x : Session) : Prop where
  live : x.Live p s
  video : x.InVideo .node
  leaf : x.leaf < x.atN

namespace Session.AtOpcode

theorem canTrap (hx : x.AtOpcode p s) : x.CanTrap p s := hx.live.canTrap hx.video.chunk.inUse

theorem of_sources (hx : x.AtOpcode p s) (hs : t.sources = s.sources) : x.AtOpcode p t :=
  ⟨hx.live.of_sources hs, hx.video, hx.leaf⟩

theorem inVideo (hx : x.AtOpcode p s) (pos : VideoPos) : x.InVideo pos := { hx.video with child := fun _ => hx.leaf }

/-- The opcode cache and the payload pointer move inside their bounds. -/
theorem setCursor (hx : x.AtOpcode p s) {w : BitVec 16} {q : BitVec 17} {n : BitVec 4} (hq : q.toNat ≤ x.cLen.toNat)
    (hn : n.toNat ≤ 8) : ({ x with opw := w, pptr := q, opn := n } : Session).AtOpcode p s where
  live := { hx.live with }
  video := { hx.video with chunk := { hx.video.chunk with }, pptr := hq, opn := hn }
  leaf := hx.leaf

theorem setBank (hx : x.AtOpcode p s) {f : Surface} (hf : f.within (surfBytes p x)) (b : BankId) :
    (x.setBank b f).AtOpcode p s where
  live := hx.live.setBank hf b
  video := by
    cases b
    · exact { hx.video with chunk := { hx.video.chunk with } }
    · exact { hx.video with chunk := { hx.video.chunk with } }
  leaf := by simpa using hx.leaf

theorem nextLeaf_inVideo (hx : x.AtOpcode p s) : (nextLeaf x).InVideo .node :=
  { hx.video with chunk := { hx.video.chunk with }, leaf := hx.leaf, child := fun h => absurd rfl h }

theorem nextLeaf_live (hx : x.AtOpcode p s) : (nextLeaf x).Live p s := { hx.live with }

end Session.AtOpcode

/-- Seventeen bits hold every position in a payload (10_state R23). -/
theorem pptr_toNat {n : Nat} {len : BitVec 24} (hn : n ≤ len.toNat) (hlen : len.toNat ≤ Config.maxChunk) :
    (BitVec.ofNat 17 n).toNat = n := by
  rw [Config.maxChunk] at hlen
  exact Nat.mod_eq_of_lt (by omega)

/-- Taking one of at most eight opcodes leaves at most eight (43_quadtree_video R184). -/
theorem opn_pred_le : ∀ {n : BitVec 4}, n ≠ 0 → n.toNat ≤ 8 → (n - 1).toNat ≤ 8 := by decide

theorem nextOpcode_keeps (hx : x.AtOpcode p s) : (nextOpcode x).Keeps p s fun ox => ox.2.AtOpcode p s := by
  rcases nextOpcode_cases x with ⟨hn, h⟩ | ⟨-, -, h⟩ | ⟨-, hl, ⟨b0, b1, -, -, h⟩ | ⟨-, h⟩⟩ <;> rw [h]
  · exact hx.setCursor hx.video.pptr (opn_pred_le hn hx.video.opn)
  · exact hx.canTrap
  · exact hx.setCursor ((pptr_toNat hl hx.video.chunk.len).trans_le hl) (opn_pred_le (n := 8) (by decide) (by decide))
  · trivial

theorem nextByte_keeps (hx : x.AtOpcode p s) : (nextByte x).Keeps p s fun bx => bx.2.AtOpcode p s := by
  rcases nextByte_cases x with ⟨-, h⟩ | ⟨hl, ⟨b, -, h⟩ | ⟨-, h⟩⟩ <;> rw [h]
  · exact hx.canTrap
  · exact hx.setCursor ((pptr_toNat hl hx.video.chunk.len).trans_le hl) hx.video.opn
  · trivial

theorem tileLookup_keeps (hx : x.AtOpcode p s) (cb : List Tile) (n : BitVec 9) (k : Byte) :
    (tileLookup x cb n k).Keeps p s fun _ => True := by
  rcases tileLookup_cases x cb n k with ⟨-, h⟩ | ⟨-, ⟨t, -, h⟩ | ⟨-, h⟩⟩ <;> rw [h]
  · exact hx.canTrap
  · trivial
  · trivial

theorem tableEntry_keeps (x : Session) (i : Nat) : (tableEntry x i).Keeps p s fun _ => True := by
  rcases tableEntry_cases x i with ⟨e, -, h⟩ | ⟨-, h⟩ <;> rw [h] <;> trivial

theorem motionLookup_keeps (x : Session) (b : Byte) : (motionLookup x b).Keeps p s fun _ => True := by
  rcases motionLookup_cases x b with ⟨m, -, h⟩ | ⟨-, h⟩ <;> rw [h] <;> trivial

/-- A block is stored inside the surface (20_memory R70). -/
theorem storeBlock_keeps (hx : x.AtOpcode p s) (n col row : Nat) (byte : Nat → Nat → Nat → Byte) :
    (storeBlock x n col row byte).Keeps p s (·.AtOpcode p s) := by
  rcases storeBlock_cases x n col row byte with ⟨-, h⟩ | ⟨hc, hr, f, h, hf, -⟩ <;> rw [h]
  · trivial
  · have hcells : ∀ c ∈ blockCells x n col row byte, c.1 < surfBytes p x := fun c hmem =>
      (blockCells_lt_area hc hr c hmem).trans_le hx.live.area_le
    exact hx.setBank (hf ▸ Surface.within_writeAll (hx.live.bank x.wr) hcells) x.wr

theorem motionFrom_keeps (hx : x.AtOpcode p s) (n col row : Nat) (m : Int × Int) :
    (motionFrom x n col row m).Keeps p s (·.AtOpcode p s) := by
  rcases motionFrom_cases x n col row m with ⟨-, h⟩ | ⟨sx, sy, -, -, -, -, h⟩ <;> rw [h]
  · exact hx.canTrap
  · exact storeBlock_keeps hx n col row _

theorem motionBlock_keeps (hx : x.AtOpcode p s) (n i : Nat) : (motionBlock n i x).Keeps p s (·.AtOpcode p s) :=
  (nextByte_keeps hx).andThen fun bx hbx =>
    (tableEntry_keeps bx.2 i).andThen fun e _ =>
      (motionLookup_keeps bx.2 bx.1).andThen fun m _ => motionFrom_keeps hbx n e.1 e.2 m

theorem vqBlock_keeps (hx : x.AtOpcode p s) (n i : Nat) (cb : List Tile) :
    (vqBlock n i cb x).Keeps p s (·.AtOpcode p s) :=
  (nextByte_keeps hx).andThen fun kx hkx =>
    (tileLookup_keeps hkx cb x.n4 kx.1).andThen fun _ _ =>
      (tableEntry_keeps kx.2 i).andThen fun e _ => storeBlock_keeps hkx n e.1 e.2 _

theorem quadBlock_keeps (hx : x.AtOpcode p s) (col row : Nat) : (quadBlock col row x).Keeps p s (·.AtOpcode p s) :=
  (nextByte_keeps hx).andThen fun kx hkx =>
    (tileLookup_keeps hkx x.cb2 x.n2 kx.1).andThen fun _ _ => storeBlock_keeps hkx 2 col row _

theorem quadBlocks_keeps (hx : x.AtOpcode p s) (i : Nat) : (quadBlocks i x).Keeps p s (·.AtOpcode p s) :=
  (tableEntry_keeps x i).andThen fun e _ =>
    (quadBlock_keeps hx e.1 e.2).andThen fun _ h1 =>
      (quadBlock_keeps h1 (e.1 + 2) e.2).andThen fun _ h2 =>
        (quadBlock_keeps h2 e.1 (e.2 + 2)).andThen fun _ h3 => quadBlock_keeps h3 (e.1 + 2) (e.2 + 2)

/-! ## The chunks -/

/-- A legal session whose chunk can end: the bytes up to its end are there (40_chunk_reader R130, R132). -/
structure Session.CanAdvance (p : Params) (s : State) (x : Session) : Prop where
  inUse : x.inUse = true
  live : x.Live p s
  fits : x.offset.toNat + Config.chunkHdr + x.cLen.toNat ≤ x.srcLen.toNat

theorem Session.InChunk.canAdvance (hc : x.InChunk) (hl : x.Live p s) : x.CanAdvance p s := ⟨hc.inUse, hl, hc.fits⟩

/-- A chunk that ends leaves OFFSET within the source (10_state R33). -/
theorem Session.CanAdvance.advance_live (hx : x.CanAdvance p s) : (advance x).Live p s :=
  { hx.live with offset := (Nat.mod_le _ _).trans hx.fits }

/-- The fetch of a chunk whose header passes the checks leaves a legal session with that chunk in progress
(40_chunk_reader R130). -/
theorem inChunk_loadPayload {tag : BitVec 16} {hd : ChunkHdr} (src : Source) (hu : x.inUse = true)
    (hst : x.status = .play) (hdue : x.decoded.toNat < x.target.toNat) (hlen : hd.len.toNat ≤ 65536)
    (hfit : 8 + hd.len.toNat ≤ x.remaining) : (loadPayload src (latched tag hd x)).InChunk where
  inUse := hu
  status := hst
  due := hdue
  len := hlen
  payload := by simp
  fits := by
    rw [Session.remaining] at hfit
    simp only [Config.chunkHdr, loadPayload_offset, loadPayload_cLen, loadPayload_srcLen, latched]
    omega

theorem Session.Live.latched (hl : x.Live p s) (tag : BitVec 16) (hd : ChunkHdr) : (latched tag hd x).Live p s := { hl with }

theorem Session.Live.loadPayload (hl : x.Live p s) (src : Source) : (loadPayload src x).Live p s := { hl with }

/-- An INFO of a legal size: a new size makes AT stale (40_chunk_reader R133, 10_state R32). -/
theorem Session.Live.declareSize (hl : x.Live p s) {w h : BitVec 16} (hw : w.toNat ≤ p.maxW) (hh : h.toNat ≤ p.maxH) :
    (declareSize w h x).Live p s := by
  rw [Machine.declareSize]
  split
  · exact { hl with width := hw, height := hh, table := nofun }
  · exact { hl with }

theorem declareSize_frame (w h : BitVec 16) (x : Session) :
    (declareSize w h x).inUse = x.inUse ∧ (declareSize w h x).offset = x.offset ∧ (declareSize w h x).cLen = x.cLen ∧
      (declareSize w h x).srcLen = x.srcLen := by
  rw [declareSize]; split <;> exact ⟨rfl, rfl, rfl, rfl⟩

theorem doInfo_keeps (hl : x.Live p s) (hc : x.InChunk) : (doInfo p x).Keeps p s (·.CanAdvance p s) := by
  have htrap : x.CanTrap p s := hl.canTrap hc.inUse
  rw [doInfo]
  split
  · exact htrap
  split
  · next b0 b1 b2 b3 _ _ =>
    simp only
    split_ifs with hsize hmode
    · exact htrap
    · exact htrap
    · obtain ⟨hw, hh⟩ := not_or.mp hsize
      obtain ⟨hu, ho, hn, hs⟩ := declareSize_frame (le16 b0 b1) (le16 b2 b3) x
      exact ⟨hu.trans hc.inUse, hl.declareSize (Nat.not_lt.mp hw) (Nat.not_lt.mp hh), by rw [ho, hn, hs]; exact hc.fits⟩
  · trivial

/-! ### CODEBOOK -/

theorem codebookCounts_le (aux0 aux1 : Byte) :
    (codebookCounts aux0 aux1).1 ≤ 256 ∧ (codebookCounts aux0 aux1).2 ≤ 256 := by
  rw [codebookCounts]
  split
  · exact ⟨le_rfl, le_rfl⟩
  · exact ⟨Nat.min_le_right _ _, Nat.min_le_right _ _⟩

/-- A payload of `n` records of six bytes gives `n` tiles and leaves the rest (30_encoding R98). -/
theorem build2_length (sel : ConvSel) (d : Depth) {n : Nat} {l : List Byte} (hl : 6 * n ≤ l.length) :
    (build2 sel d n l).1.length = n ∧ (build2 sel d n l).2.length = l.length - 6 * n := by
  induction n generalizing l with
  | zero => simp [build2]
  | succ n ih =>
    match l, hl with
    | y0 :: y1 :: y2 :: y3 :: u :: v :: rest, hl =>
      simp only [List.length_cons] at hl
      obtain ⟨h1, h2⟩ := ih (l := rest) (by omega)
      simp only [build2, List.length_cons, h1, h2, true_and]
      omega
    | [], hl | [_], hl | [_, _], hl | [_, _, _], hl | [_, _, _, _], hl | [_, _, _, _, _], hl =>
      simp at hl <;> omega

/-- With `k` seed records and no bad seed there are `k` tiles (42_codebook R163, R167). -/
theorem build4_length {cb2 : List Tile} {n2 k : Nat} {l : List Byte} (hl : 4 * k ≤ l.length)
    (hok : (build4 cb2 n2 k l).2 = true) : (build4 cb2 n2 k l).1.length = k := by
  induction k generalizing l with
  | zero => simp [build4]
  | succ k ih =>
    match l, hl with
    | a :: b :: c :: d :: rest, hl =>
      simp only [List.length_cons] at hl
      simp only [build4] at hok ⊢
      split at hok
      · cases hok
      · next hseed =>
        rw [if_neg hseed, List.length_cons, ih (by omega) hok]
    | [], hl | [_], hl | [_, _], hl | [_, _, _], hl => simp at hl <;> omega

theorem count_toNat {n : Nat} (hn : n ≤ 256) : (BitVec.ofNat 9 n).toNat = n := Nat.mod_eq_of_lt (by omega)

/-- A CODEBOOK that completes leaves a tile for each code below the counts; one that traps ends the session, which needs
none (42_codebook R165, R167). -/
theorem doCodebook_keeps (hl : x.Live p s) (hc : x.InChunk) : (doCodebook p x).Keeps p s (·.CanAdvance p s) := by
  obtain ⟨hn2, hn4⟩ := codebookCounts_le x.cAux0 x.cAux1
  simp only [doCodebook]
  split
  · exact hl.canTrap hc.inUse
  next hshort =>
  have hpay := hc.payload
  obtain ⟨h2, hrest⟩ := build2_length p.conv x.bpp (n := (codebookCounts x.cAux0 x.cAux1).1) (l := x.payload) (by omega)
  split
  · next hok =>
    have h4 := build4_length (by omega) hok
    refine ⟨hc.inUse, { hl with count2 := ?_, count4 := ?_, tiles := fun _ => ⟨?_, ?_, ?_⟩ }, hc.fits⟩
    · simpa only [count_toNat hn2] using hn2
    · simpa only [count_toNat hn4] using hn4
    · simp only [count_toNat hn2, h2, le_refl]
    · simp only [count_toNat hn4, h4, le_refl]
    · simp only [count_toNat hn4, List.length_map, h4, le_refl]
  · exact ⟨hc.inUse, fun e => { hl.trapEntry e with tiles := fun h => absurd rfl h }⟩

/-! ### VIDEO -/

/-- AT, regenerated when it is stale, is the table of the present size (43_quadtree_video R180, R181). -/
theorem Session.Live.refreshTable (hl : x.Live p s) : (refreshTable p x).Live p s := by
  rw [Machine.refreshTable]
  split
  · exact hl
  · exact
      { hl with
        table := fun _ => ⟨rfl, (Nat.mul_div_cancel' (blocksInside_genTable p x.w.toNat x.h.toNat).nodes).symm⟩ }

theorem Session.InChunk.refreshTable (hc : x.InChunk) (p : Params) : (refreshTable p x).InChunk := by
  rw [Machine.refreshTable]
  split
  · exact hc
  · exact { hc with }

theorem refreshTable_atValid (p : Params) (x : Session) : (refreshTable p x).atValid = true := by
  rw [refreshTable]
  split
  · assumption
  · rfl

theorem openVideo_live (hl : x.Live p s) : (openVideo p x).Live p s := { hl.refreshTable with }

theorem openVideo_inVideo (hc : x.InChunk) (p : Params) : (openVideo p x).InVideo .node where
  chunk := { hc.refreshTable p with }
  valid := refreshTable_atValid p x
  motion := rfl
  pptr := Nat.zero_le _
  opn := Nat.zero_le _
  leaf := Nat.zero_le _
  child := fun h => absurd rfl h

/-- The completed frame is in the bank not written next, and fits a surface (43_quadtree_video R196, R197). -/
theorem Session.Live.frameComplete (hl : x.Live p s) (hst : x.status ≠ .endOfStream) : (frameComplete x).Live p s := by
  simp only [Machine.frameComplete]
  split
  · have hcopy := Surface.within_copyArea (hl.bank x.wr.other) hl.area_le (x.bank x.wr)
    exact
      { hl.setBank hcopy x.wr.other with
        frame := fun _ => ⟨(BankId.other_other _).symm, by simpa using hst, hl.width, hl.height⟩ }
  · exact { hl with frame := fun _ => ⟨(BankId.other_other _).symm, hst, hl.width, hl.height⟩ }

theorem frameComplete_frame (x : Session) :
    (frameComplete x).inUse = x.inUse ∧ (frameComplete x).offset = x.offset ∧ (frameComplete x).cLen = x.cLen ∧
      (frameComplete x).srcLen = x.srcLen := by
  simp only [frameComplete]; split <;> simp

theorem Session.InVideo.frameComplete_canAdvance {pos : VideoPos} (hv : x.InVideo pos) (hl : x.Live p s) :
    (frameComplete x).CanAdvance p s := by
  obtain ⟨hu, ho, hn, hs⟩ := frameComplete_frame x
  exact ⟨hu.trans hv.chunk.inUse, hl.frameComplete (by simp [hv.chunk.status]), by rw [ho, hn, hs]; exact hv.chunk.fits⟩

/-! ### Audio -/

/-- An accumulator is a signed 16-bit sample (45_audio R267). -/
theorem sample_range (acc : BitVec 16) : -32768 ≤ acc.toInt ∧ acc.toInt ≤ 32767 := by
  have hlo := BitVec.le_toInt acc
  have hhi := BitVec.toInt_lt (x := acc)
  norm_num at hlo hhi
  omega

theorem samples_append {l m : List Int} (hl : ∀ v ∈ l, -32768 ≤ v ∧ v ≤ 32767) (hm : ∀ v ∈ m, -32768 ≤ v ∧ v ≤ 32767) :
    ∀ v ∈ l ++ m, -32768 ≤ v ∧ v ≤ 32767 := fun v hv => (List.mem_append.mp hv).elim (hl v) (hm v)

theorem deltaStep_live (hl : x.Live p s) (stereo : Bool) (d : Byte) : (deltaStep stereo d x).Live p s := by
  rcases deltaStep_cases stereo d x with ⟨-, h⟩ | ⟨-, -, h⟩ | ⟨-, -, h⟩ <;> rw [h] <;> exact { hl with }

/-- An audio byte that is left appends its samples (45_audio R261 to R263). -/
theorem deltaStep_inAudio {stereo : Bool} (ha : x.InAudio stereo) (hpos : x.audioPos < deltaCount stereo x) (d : Byte) :
    (deltaStep stereo d x).InAudio stereo := by
  have hbuf := ha.buf
  rcases deltaStep_cases stereo d x with ⟨rfl, h⟩ | ⟨rfl, -, h⟩ | ⟨rfl, -, h⟩ <;> rw [h]
  · refine { ha with chunk := { ha.chunk with }, pos := hpos, buf := ?_, samples := samples_append ha.samples ?_ }
    · simp only [Bool.false_eq_true, if_false] at hbuf
      simp [deltaMono, hbuf, Nat.mul_succ]
    · simpa using sample_range (stepAcc x.accL d)
  · refine { ha with chunk := { ha.chunk with }, pos := hpos, buf := ?_, samples := samples_append ha.samples ?_ }
    · simpa [deltaLeft] using hbuf
    · simpa using sample_range (stepAcc x.accL d)
  · refine { ha with chunk := { ha.chunk with }, pos := hpos, buf := ?_, samples := samples_append ha.samples ?_ }
    · simpa [deltaRight] using hbuf
    · simpa using sample_range (stepAcc x.accR d)

/-- An audio chunk opens with no byte stepped and no sample (45_audio R261, R262). -/
theorem inAudio_open (hc : x.InChunk) (hloud : x.silentFlag = false) (stereo : Bool) (l r : BitVec 16) :
    ({ x with accL := l, accR := r, audioBuf := [], audioPos := 0 } : Session).InAudio stereo where
  chunk := { hc with }
  loud := hloud
  pos := Nat.zero_le _
  buf := by simp
  samples := nofun

/-- The push of an audio chunk is legal (45_audio R266, R267). -/
theorem Session.Live.pushAudio {stereo : Bool} (hl : x.Live p s) (ha : x.InAudio stereo) : (pushAudio p x).Live p s := by
  rw [Machine.pushAudio]
  split
  · exact hl
  · next hne =>
    exact
      { hl with
        audio := fun e he => (List.mem_append.mp he).elim (hl.audio e) fun he => by
          rw [List.mem_singleton.mp he]; exact ⟨hne, ha.samples, rfl, rfl⟩ }

theorem pushAudio_canAdvance {stereo : Bool} (hl : x.Live p s) (ha : x.InAudio stereo) : (pushAudio p x).CanAdvance p s := by
  refine ⟨?_, hl.pushAudio ha, ?_⟩ <;> rw [pushAudio] <;> split
  · exact ha.chunk.inUse
  · exact ha.chunk.inUse
  · exact ha.chunk.fits
  · exact ha.chunk.fits

end Live

end Sys2Proof.Machine
end

section
/-! The invariant, step by step: a step stores one slot and goes to a phase that slot fits (10_state, 60_exceptions R292). -/

namespace Sys2Proof.Machine

/-! ## What a phase says of its slot -/

/-- What a phase says of the session in the slot it works for (`Phase.Legal`). -/
def Phase.Describes : Phase → Session → Prop
  | .idle, _ => True
  | .header _ _, x => x.inUse = true ∧ x.status = .play
  | .loop _, x => x.inUse = true
  | .fetch _, x =>
    x.inUse = true ∧ x.status = .play ∧ x.decoded.toNat < x.target.toNat ∧ x.offset.toNat < x.srcLen.toNat
  | .video _ pos, x => x.InVideo pos
  | .audio _ stereo, x => x.InAudio stereo

theorem Phase.legal_iff {p : Phase} {s : State} :
    p.Legal s ↔ ∀ h, p.slot = some h → ∃ x, s.slots[h]? = some x ∧ p.Describes x := by
  cases p <;> simp [Phase.Legal, Phase.slot, Phase.Describes]

theorem Phase.Describes.inUse {p : Phase} {h : Nat} {x : Session} (hd : p.Describes x) (hp : p.slot = some h) :
    x.inUse = true := by
  cases p with
  | idle => cases hp
  | header n restart => exact hd.1
  | loop n => exact hd
  | fetch n => exact hd.1
  | video n pos => exact hd.chunk.inUse
  | audio n stereo => exact hd.chunk.inUse

/-- A legal session in the situation the phase `ph` says. -/
structure Session.StandsAt (p : Params) (s : State) (ph : Phase) (x : Session) : Prop where
  inUse : x.inUse = true
  live : x.Live p s
  phase : ph.Describes x

/-- The slot a legal state works for stands where the phase says. -/
theorem State.Inv.standsAt {s : State} (hi : s.Inv) {h : Nat} (hp : s.phase.slot = some h) :
    ∃ x, s.slots[h]? = some x ∧ x.StandsAt s.cfg s s.phase := by
  obtain ⟨x, hx, hd⟩ := Phase.legal_iff.mp hi.phase h hp
  exact ⟨x, hx, hd.inUse hp, hi.live hx (hd.inUse hp), hd⟩

/-! ## Storing a slot -/

/-- `t` is `s` with `y` in slot `h`, but for where it stands in a command, the port, the answer and the counts. -/
structure State.Stored (s : State) (h : Nat) (y : Session) (t : State) : Prop where
  cfg : t.cfg = s.cfg
  sources : t.sources = s.sources
  slots : t.slots = s.slots.set h y
  leases : t.leases.length = s.leases.length

/-- A state with the slots of a legal one is legal where its phase is. -/
theorem State.Inv.of_slots {s t : State} (hi : s.Inv) (hcfg : t.cfg = s.cfg) (hsrc : t.sources = s.sources)
    (hslots : t.slots = s.slots) (hleases : t.leases = s.leases) (hph : t.phase.Legal s) : t.Inv where
  cfg := hcfg ▸ hi.cfg
  slots := by rw [hslots, hcfg]; exact hi.slots
  leases := by rw [hslots, hleases]; exact hi.leases
  legal x hx := by rw [hcfg]; exact (hi.legal x (hslots ▸ hx)).of_sources hsrc
  phase := by rw [Phase.legal_iff] at hph ⊢; rwa [hslots]

/-- Storing a legal session keeps the invariant, if the next phase works for no slot or says the truth of this one. -/
theorem State.Inv.store {s t : State} {h : Nat} {y : Session} (hi : s.Inv) (hst : s.Stored h y t) (hy : y.Legal s.cfg s)
    (hph : ∀ k, t.phase.slot = some k → k = h ∧ h < s.slots.length ∧ t.phase.Describes y) : t.Inv where
  cfg := hst.cfg ▸ hi.cfg
  slots := by rw [hst.slots, hst.cfg, List.length_set]; exact hi.slots
  leases := by rw [hst.slots, hst.leases, List.length_set]; exact hi.leases
  legal x hx := by
    rw [hst.slots] at hx
    rw [hst.cfg]
    rcases List.mem_or_eq_of_mem_set hx with hx | rfl
    · exact (hi.legal x hx).of_sources hst.sources
    · exact hy.of_sources hst.sources
  phase := Phase.legal_iff.mpr fun k hk => by
    obtain ⟨rfl, hlt, hd⟩ := hph k hk
    exact ⟨y, by rw [hst.slots]; simp [hlt], hd⟩

/-- A command that returns leaves a legal session in the slot. -/
theorem State.Inv.store_idle {s t : State} {h : Nat} {y : Session} (hi : s.Inv) (hst : s.Stored h y t)
    (hy : y.Legal s.cfg s) (hph : t.phase = .idle) : t.Inv :=
  hi.store hst hy fun _ hk => by rw [hph] at hk; cases hk

/-- A command that goes on leaves in its slot a session that stands at the next phase. -/
theorem State.Inv.store_standsAt {s t : State} {h : Nat} {y : Session} (hi : s.Inv) (hst : s.Stored h y t)
    (hlt : h < s.slots.length) (hy : y.StandsAt s.cfg s t.phase) (hph : t.phase.slot = some h) : t.Inv :=
  hi.store hst (hy.live.legal hy.inUse) fun _ hk => ⟨Option.some.inj (hk.symm.trans hph), hlt, hy.phase⟩

theorem raiseFatal_inv {s : State} {x : Session} (hi : s.Inv) (hx : x.CanTrap s.cfg s) (h : Nat) (e : ErrCode) :
    (raiseFatal s h e x).Inv :=
  hi.store_idle ⟨rfl, rfl, rfl, rfl⟩ (((hx.2 e).retireChunk s.freeCount).legal hx.1) rfl

/-! ## Outcomes that keep the invariant -/

/-- If the outcome is a next state, it is a legal one. -/
def KeepsInv (o : Host.Outcome State Fault Refusal) : Prop := ∀ t, o = .next t → t.Inv

theorem keepsInv_next {t : State} (ht : t.Inv) : KeepsInv (.next t) := fun _ h => Host.Outcome.next.inj h ▸ ht

@[simp] theorem keepsInv_fault (f : Fault) : KeepsInv (.fault f) := fun _ h => by cases h

@[simp] theorem keepsInv_refused (r : Refusal) : KeepsInv (.refused r) := fun _ h => by cases h

theorem commit_keepsInv {s : State} {h : Nat} {p : Phase} {r : Res Session} (hi : s.Inv) (hlt : h < s.slots.length)
    (hp : p.slot = some h) (hr : r.Keeps s.cfg s (·.StandsAt s.cfg s p)) : KeepsInv (commit s h p r) := by
  cases r with
  | ok y => exact keepsInv_next (hi.store_standsAt ⟨rfl, rfl, rfl, rfl⟩ hlt hr hp)
  | raised e y => exact keepsInv_next (raiseFatal_inv hi hr h e)
  | stuck f => exact keepsInv_fault f

theorem endChunk_keepsInv {s : State} {h : Nat} {r : Res Session} (hi : s.Inv) (hlt : h < s.slots.length)
    (hr : r.Keeps s.cfg s (·.CanAdvance s.cfg s)) : KeepsInv (endChunk s h r) := by
  cases r with
  | ok y =>
    have hy : (retireChunk s.freeCount (advance y)).StandsAt s.cfg s (.loop h) :=
      ⟨hr.inUse, hr.advance_live.retireChunk s.freeCount, hr.inUse⟩
    exact keepsInv_next (hi.store_standsAt ⟨rfl, rfl, rfl, rfl⟩ hlt hy rfl)
  | raised e y => exact keepsInv_next (raiseFatal_inv hi hr h e)
  | stuck f => exact keepsInv_fault f

theorem slot_lt {s : State} {h : Nat} {x : Session} (hx : s.slots[h]? = some x) : h < s.slots.length :=
  (List.getElem?_eq_some_iff.mp hx).1

/-! ## The video opcodes -/

section Opcodes

variable {s : State} {h : Nat} {x : Session}

theorem Session.AtOpcode.standsAt (hx : x.AtOpcode s.cfg s) (pos : VideoPos) : x.StandsAt s.cfg s (.video h pos) :=
  ⟨hx.video.chunk.inUse, hx.live, hx.inVideo pos⟩

/-- After the opcode of a node is done the next node is due (43_quadtree_video R183). -/
theorem Session.AtOpcode.nextLeaf_standsAt (hx : x.AtOpcode s.cfg s) :
    (nextLeaf x).StandsAt s.cfg s (.video h .node) :=
  ⟨hx.video.chunk.inUse, hx.nextLeaf_live, hx.nextLeaf_inVideo⟩

/-- After a child the next child or the next node is due (43_quadtree_video R189). -/
theorem Session.AtOpcode.leafAfterChild_standsAt (hx : x.AtOpcode s.cfg s) (j : Fin 4) :
    (leafAfterChild j x).StandsAt s.cfg s (afterChild h j) := by
  match j with
  | 0 => exact hx.standsAt (.child 1)
  | 1 => exact hx.standsAt (.child 2)
  | 2 => exact hx.standsAt (.child 3)
  | 3 => exact hx.nextLeaf_standsAt

theorem afterChild_slot (h : Nat) (j : Fin 4) : (afterChild h j).slot = some h := by
  rw [afterChild]; split_ifs <;> rfl

theorem atNode_keepsInv {next : Nat → Phase} {k : Session → Res Session} (hi : s.Inv) (hx : s.slots[h]? = some x)
    (hp : s.phase = .video h .node) (hnext : (next h).slot = some h)
    (hk : (k x).Keeps s.cfg s (·.StandsAt s.cfg s (next h))) : KeepsInv (atNode s next k) := by
  simpa [atNode, hp, hx] using commit_keepsInv hi (slot_lt hx) hnext hk

theorem atChild_keepsInv {j : Fin 4} {k : Fin 4 → Session → Res Session} (hi : s.Inv) (hx : s.slots[h]? = some x)
    (hp : s.phase = .video h (.child j)) (hk : (k j x).Keeps s.cfg s (·.AtOpcode s.cfg s)) : KeepsInv (atChild s k) := by
  have hleaf : ((k j x).andThen fun x1 => .ok (leafAfterChild j x1)).Keeps s.cfg s (·.StandsAt s.cfg s (afterChild h j)) :=
    hk.andThen fun _ hy => hy.leafAfterChild_standsAt j
  simpa [atChild, hp, hx] using commit_keepsInv hi (slot_lt hx) (afterChild_slot h j) hleaf

theorem exec_qop8_keepsInv (hi : s.Inv) (hx : s.slots[h]? = some x) (hp : s.phase = .video h .node)
    (ha : x.AtOpcode s.cfg s) (code : BitVec 2) : KeepsInv (exec (decodeQop8 code) s) := by
  have hleaf : ∀ {r : Res Session}, r.Keeps s.cfg s (·.AtOpcode s.cfg s) →
      (r.andThen fun x1 => .ok (nextLeaf x1)).Keeps s.cfg s (·.StandsAt s.cfg s (.video h .node)) :=
    fun hr => hr.andThen fun _ hy => hy.nextLeaf_standsAt
  rcases decodeQop8_cases code with hc | hc | hc | hc <;> rw [hc]
  · exact atNode_keepsInv (k := fun x => .ok (nextLeaf x)) hi hx hp rfl ha.nextLeaf_standsAt
  · exact atNode_keepsInv hi hx hp rfl (hleaf (motionBlock_keeps ha 8 _))
  · exact atNode_keepsInv hi hx hp rfl (hleaf (vqBlock_keeps ha 8 _ _))
  · exact atNode_keepsInv (k := .ok) hi hx hp rfl (ha.standsAt (.child 0))

theorem exec_qop4_keepsInv {j : Fin 4} (hi : s.Inv) (hx : s.slots[h]? = some x) (hp : s.phase = .video h (.child j))
    (ha : x.AtOpcode s.cfg s) (code : BitVec 2) : KeepsInv (exec (decodeQop4 code) s) := by
  rcases decodeQop4_cases code with hc | hc | hc | hc <;> rw [hc]
  · exact atChild_keepsInv (k := fun _ => .ok) hi hx hp ha
  · exact atChild_keepsInv hi hx hp (motionBlock_keeps ha 4 _)
  · exact atChild_keepsInv hi hx hp (vqBlock_keeps ha 4 _ _)
  · exact atChild_keepsInv hi hx hp (quadBlocks_keeps ha _)

/-- Where an opcode is due it is taken, or the payload is truncated; what it decodes to, `dec` of it, then works on the
legal state with the opcode taken. -/
theorem fetchOpcode_keepsInv {pos : VideoPos} {enc : BitVec 2 → Encoded} {dec : BitVec 2 → Instr} (hi : s.Inv)
    (hx : s.slots[h]? = some x) (hp : s.phase = .video h pos) (hf : fetch s = fetchOpcode s h x enc)
    (hdec : ∀ p code, decode p (enc code) = .ok (dec code)) (ha : x.AtOpcode s.cfg s)
    (hexec : ∀ (y : Session) (code : BitVec 2), (s.setSlot h y).Inv → (s.setSlot h y).slots[h]? = some y →
      y.AtOpcode s.cfg (s.setSlot h y) → KeepsInv (exec (dec code) (s.setSlot h y))) : KeepsInv (step s) := by
  have hn := nextOpcode_keeps ha
  cases ho : nextOpcode x with
  | ok ox =>
    rw [ho] at hn
    rw [step_of_instr (by rw [hf, fetchOpcode, ho]) (hdec _ _)]
    have hy : ox.2.StandsAt s.cfg s (s.setSlot h ox.2).phase := by
      rw [State.setSlot_phase, hp]; exact Session.AtOpcode.standsAt hn pos
    have hinv : (s.setSlot h ox.2).Inv :=
      hi.store_standsAt ⟨rfl, rfl, rfl, rfl⟩ (slot_lt hx) hy (by rw [State.setSlot_phase, hp]; rfl)
    exact hexec ox.2 ox.1 hinv (slots_setSlot_self s h ox.2 (slot_lt hx)) (Session.AtOpcode.of_sources hn rfl)
  | raised e y =>
    rw [ho] at hn
    rw [step_of_done (by rw [hf, fetchOpcode, ho])]
    exact keepsInv_next (raiseFatal_inv hi hn h e)
  | stuck f => rw [step_of_done (by rw [hf, fetchOpcode, ho])]; exact keepsInv_fault f

end Opcodes

/-! ## The chunks -/

section Chunks

variable {s : State} {h : Nat} {x : Session}

/-- A chunk keeps the invariant if its own rule does so from a legal session with the chunk in progress. -/
theorem atChunk_keepsInv {tag : BitVec 16} {hd : ChunkHdr} {k : Nat → Session → Host.Outcome State Fault Refusal}
    (hi : s.Inv) (hx : s.slots[h]? = some x) (hp : s.phase = .fetch h) (hst : x.StandsAt s.cfg s (.fetch h))
    (hk : ∀ y : Session, y.Live s.cfg s → y.InChunk → KeepsInv (k h y)) : KeepsInv (atChunk s tag hd k) := by
  intro t ht
  obtain ⟨h', x', hp', hx', hcase⟩ := atChunk_cases ht
  obtain rfl : h = h' := Phase.fetch.inj (hp.symm.trans hp')
  obtain rfl : x = x' := Option.some.inj (hx.symm.trans hx')
  obtain ⟨hu, hplay, hdue, -⟩ := hst.phase
  rcases hcase with ⟨e, x1, rfl | rfl, -, rfl⟩ | ⟨src, hlen, hfit, -, hrun⟩
  · exact raiseFatal_inv hi (hst.live.canTrap hu) h e
  · exact raiseFatal_inv hi ((hst.live.latched tag hd).canTrap hu) h e
  · exact hk _ ((hst.live.latched tag hd).loadPayload src) (inChunk_loadPayload src hu hplay hdue hlen hfit) t hrun

theorem inAudio_standsAt {stereo : Bool} (hl : x.Live s.cfg s) (ha : x.InAudio stereo) :
    x.StandsAt s.cfg s (.audio h stereo) := ⟨ha.chunk.inUse, hl, ha⟩

/-- Each of the seven chunks keeps the invariant. -/
theorem exec_chunk_keepsInv {hd : ChunkHdr} {i : Instr} (hi : s.Inv) (hx : s.slots[h]? = some x)
    (hp : s.phase = .fetch h) (hst : x.StandsAt s.cfg s (.fetch h))
    (hmem : i ∈ [Instr.info hd, .codebook hd, .video hd, .hang hd, .audioMono hd, .audioStereo hd, .packet hd]) :
    KeepsInv (exec i s) := by
  have hlt := slot_lt hx
  simp only [List.mem_cons, List.not_mem_nil, or_false] at hmem
  rcases hmem with rfl | rfl | rfl | rfl | rfl | rfl | rfl <;>
    simp only [exec, execInfo, execCodebook, execVideo, execHang, execAudioMono, execAudioStereo, execPacket] <;>
    refine atChunk_keepsInv hi hx hp hst fun y hl hc => ?_
  · exact endChunk_keepsInv hi hlt (doInfo_keeps hl hc)
  · exact endChunk_keepsInv hi hlt (doCodebook_keeps hl hc)
  · have hv := openVideo_inVideo hc s.cfg
    exact commit_keepsInv hi hlt rfl ⟨hv.chunk.inUse, openVideo_live hl, hv⟩
  · exact endChunk_keepsInv hi hlt (hc.canAdvance hl)
  · split_ifs with hsilent
    · exact endChunk_keepsInv hi hlt (hc.canAdvance hl)
    · have ha := inAudio_open hc (Bool.eq_false_of_not_eq_true hsilent) false (monoSeed s.cfg y) y.accR
      exact commit_keepsInv hi hlt rfl (inAudio_standsAt { hl with } ha)
  · split_ifs with hsilent
    · exact endChunk_keepsInv hi hlt (hc.canAdvance hl)
    · have ha := inAudio_open hc (Bool.eq_false_of_not_eq_true hsilent) true (stereoSeed s.cfg y.cAux1)
        (stereoSeed s.cfg y.cAux0)
      exact commit_keepsInv hi hlt rfl (inAudio_standsAt { hl with } ha)
  · exact endChunk_keepsInv hi hlt ⟨hc.inUse, { hl with }, hc.fits⟩

/-! ## The header parse and the catch-up loop -/

/-- The header parse leaves OFFSET at 8, within a source of 16 bytes at least (40_chunk_reader R137). -/
theorem parseHeader_keeps {p : Params} (hl : x.Live p s) (hu : x.inUse = true) (hplay : x.status = .play)
    (magic fps : BitVec 16) :
    ((openHeader x).andThen (loadHeader p magic fps)).Keeps p s fun y =>
      y.inUse = true ∧ y.status = .play ∧ y.Live p s := by
  have hrewound : ∀ b : Bool, ({ x with offset := 0, inmem := b } : Session).Live p s := fun b =>
    { hl with offset := Nat.zero_le _ }
  rcases openHeader_cases x with ⟨-, ho⟩ | ⟨hlen, ho⟩ <;> rw [ho]
  · exact (hrewound x.inmem).canTrap hu
  · rw [andThen_ok]
    rcases loadHeader_cases p magic fps { x with offset := 0, inmem := decide (x.rawn ≠ 0) } with
      ⟨-, hm⟩ | ⟨-, hm⟩ <;> rw [hm]
    · exact (hrewound _).canTrap hu
    · exact ⟨hu, hplay, { hl with offset := le_trans (show 8 ≤ 16 by decide) hlen }⟩

/-- A loop restart leaves no tile with a value (44_scheduler R226, 10_state R35). -/
theorem restartRegs_live {p : Params} (hl : x.Live p s) (hplay : x.status = .play) (k : Nat) :
    (restartRegs k x).Live p s :=
  { hl.setStatus (st := .looped) (by simp [hplay]) (by simp) with
    count2 := Nat.zero_le _
    count4 := Nat.zero_le _
    tiles := fun _ => ⟨Nat.zero_le _, Nat.zero_le _, Nat.zero_le _⟩ }

theorem exec_filehdr_keepsInv {restart : Bool} (hi : s.Inv) (hx : s.slots[h]? = some x)
    (hp : s.phase = .header h restart) (hst : x.StandsAt s.cfg s (.header h restart)) (magic : BitVec 16)
    (unused : BitVec 32) (fps : BitVec 16) : KeepsInv (exec (.filehdr magic unused fps) s) := by
  obtain ⟨hu, hplay⟩ := hst.phase
  have hparse := parseHeader_keeps hst.live hu hplay magic fps
  simp only [exec, execFilehdr, hp, hx]
  cases hr : (openHeader x).andThen (loadHeader s.cfg magic fps) with
  | ok y =>
    rw [hr] at hparse
    obtain ⟨hyu, hyplay, hyl⟩ := hparse
    cases restart with
    | false => exact keepsInv_next (hi.store_idle ⟨rfl, rfl, rfl, rfl⟩ (hyl.legal hyu) rfl)
    | true =>
      have hy : (restartRegs s.freeCount y).StandsAt s.cfg s (.loop h) := ⟨hyu, restartRegs_live hyl hyplay _, hyu⟩
      exact keepsInv_next (hi.store_standsAt ⟨rfl, rfl, rfl, rfl⟩ (slot_lt hx) hy rfl)
  | raised e y =>
    rw [hr] at hparse
    exact keepsInv_next (raiseFatal_inv hi hparse h e)
  | stuck f => exact keepsInv_fault f

/-- An end of data into EndOfStream leaves no frame and both banks unwritten (44_scheduler R225, 10_state R39). -/
theorem endOfStream_live {p : Params} (hl : x.Live p s) (k : Nat) :
    ({ x with status := .endOfStream, hasFrame := false, fb0 := .unwritten k, fb1 := .unwritten (k + 1) } :
      Session).Live p s :=
  { hl with
    tiles := fun hne => absurd rfl hne
    frame := nofun
    error := fun _ => rfl
    bank0 := Surface.within_unwritten _ _
    bank1 := Surface.within_unwritten _ _ }

theorem endOfData_inv (hi : s.Inv) (hx : s.slots[h]? = some x) (hu : x.inUse = true) (hl : x.Live s.cfg s)
    (hplay : x.status = .play) : (endOfData s h x).Inv := by
  rcases endOfData_cases s h x with ⟨-, ht⟩ | ⟨-, -, ht⟩ | ⟨-, -, ht⟩ <;> rw [ht]
  · have hy : ({ x with status := .idle } : Session).StandsAt s.cfg s (.loop h) :=
      ⟨hu, hl.setStatus (by simp [hplay]) (by simp), hu⟩
    exact hi.store_standsAt ⟨rfl, rfl, rfl, rfl⟩ (slot_lt hx) hy rfl
  · exact hi.of_slots rfl rfl rfl rfl ⟨x, hx, hu, hplay⟩
  · have hy : Session.StandsAt s.cfg s (.loop h)
        { x with
          status := .endOfStream
          hasFrame := false
          fb0 := .unwritten s.freeCount
          fb1 := .unwritten (s.freeCount + 1) } := ⟨hu, endOfStream_live hl _, hu⟩
    exact hi.store_standsAt ⟨rfl, rfl, rfl, rfl⟩ (slot_lt hx) hy rfl

theorem loopHead_inv (hi : s.Inv) (hx : s.slots[h]? = some x) (hu : x.inUse = true) (hl : x.Live s.cfg s) :
    (loopHead s h x).Inv := by
  rcases loopHead_cases s h x with ⟨-, ht⟩ | ⟨hplay, hdue, ⟨hoff, ht⟩ | ⟨-, ht⟩⟩ <;> rw [ht]
  · exact hi.of_slots rfl rfl rfl rfl trivial
  · exact hi.of_slots rfl rfl rfl rfl ⟨x, hx, hu, hplay, hdue, hoff⟩
  · exact endOfData_inv hi hx hu hl hplay

end Chunks

/-! ## The host commands -/

section Commands

variable {s : State}

/-- START makes a legal session: nothing is written in its banks, no count and no table is set (10_state R44). -/
theorem startSession_live {srcId : Nat} {src : Source} (ho : srcOpen s srcId = some src) (hlen : src.len < 2 ^ 32)
    (k : Nat) (x y w h : BitVec 32) (flags : BitVec 4) (now : BitVec 48) :
    (startSession s.cfg k src x y w h flags now).Live s.cfg s where
  mode := rfl
  depth := rfl
  offset := Nat.zero_le _
  width := Nat.zero_le _
  height := Nat.zero_le _
  count2 := Nat.zero_le _
  count4 := Nat.zero_le _
  tiles := fun _ => ⟨Nat.zero_le _, Nat.zero_le _, Nat.zero_le _⟩
  table := nofun
  source := by rw [sourceOf_startSession ho hlen]; rfl
  frame := nofun
  error := fun hne => absurd rfl hne
  bank0 := Surface.within_unwritten _ _
  bank1 := Surface.within_unwritten _ _
  audio := nofun

theorem exec_start_keepsInv (hi : s.Inv) (hp : s.phase = .idle) (srcId : Nat) (x y w h : BitVec 32) (flags : BitVec 4)
    (now : BitVec 48) : KeepsInv (exec (.start srcId x y w h flags now) s) := by
  have hanswer : ∀ r, KeepsInv (.next (s.answer r)) := fun r =>
    keepsInv_next (hi.of_slots rfl rfl rfl rfl trivial)
  simp only [exec, execStart, if_pos hp]
  split
  · exact hanswer _
  next i hslot =>
  split
  · exact hanswer _
  next src ho =>
  split_ifs with hzero hlong
  · exact hanswer _
  · simp
  · have hn : (startSession s.cfg s.freeCount src x y w h flags now).StandsAt s.cfg s (.header i false) :=
      ⟨rfl, startSession_live ho (Nat.not_le.mp hlong) _ _ _ _ _ _ _, rfl, rfl⟩
    have hlt : i < s.slots.length := (List.findIdx?_eq_some_iff_getElem.mp hslot).1
    exact keepsInv_next (hi.store_standsAt ⟨rfl, rfl, rfl, rfl⟩ hlt hn rfl)

/-- A slot after STOP is free (44_scheduler R228). -/
theorem releasedSession_legal (p : Params) (k : Nat) : (releasedSession k).Legal p s :=
  ⟨nofun, fun _ => ⟨rfl, rfl, Surface.unwritten_wf _, Surface.unwritten_wf _⟩⟩

/-- A TICK that enters the catch-up loop wakes a session that is not in EndOfStream (44_scheduler R222, R227). -/
theorem wakeSession_live {p : Params} {x : Session} (hl : x.Live p s) (hst : x.status ≠ .endOfStream) (now : BitVec 48) :
    (wakeSession now x).Live p s := { hl.setStatus (st := .play) hst (by simp) with }

theorem resumed_live {p : Params} {x : Session} (hl : x.Live p s) : (resumed x).Live p s := by
  rw [resumed]
  split
  · next hidle => exact hl.setStatus (by simp [hidle]) (by simp)
  · exact hl

theorem resumed_inUse (x : Session) : (resumed x).inUse = x.inUse := by rw [resumed]; split <;> rfl

theorem onSession_keepsInv {x : Session} {o : Host.Outcome State Fault Refusal} (ho : KeepsInv o) :
    KeepsInv (onSession s x o) := fun t ht => ho t (onSession_eq_next ht).2

/-- TICK, STOP, GETFRAME and RESUME of any handle keep the invariant. -/
theorem exec_session_command_keepsInv (hi : s.Inv) (hp : s.phase = .idle) (handle : Nat) :
    (∀ now, KeepsInv (exec (.tick handle now) s)) ∧ KeepsInv (exec (.stop handle) s) ∧
      KeepsInv (exec (.getframe handle) s) ∧ KeepsInv (exec (.resume handle) s) := by
  have hanswer : ∀ r, KeepsInv (.next (s.answer r)) := fun r =>
    keepsInv_next (hi.of_slots rfl rfl rfl rfl trivial)
  simp only [exec, execTick, execStop, execGetframe, execResume, if_pos hp]
  cases hs : session? s handle with
  | none => exact ⟨fun _ => hanswer _, hanswer _, hanswer _, hanswer _⟩
  | some x =>
    obtain ⟨hx, hu⟩ := session?_eq_some hs
    have hl := hi.live hx hu
    refine ⟨fun now => onSession_keepsInv ?_, ?_, onSession_keepsInv (hanswer _), onSession_keepsInv ?_⟩
    · split_ifs with hstays
      · have hy : ({ x with nowL := now } : Session).Live s.cfg s := { hl with }
        exact keepsInv_next (hi.store_idle ⟨rfl, rfl, rfl, by simp⟩ (hy.legal hu) rfl)
      · have hy : (wakeSession now x).StandsAt s.cfg s (.loop handle) :=
          ⟨hu, wakeSession_live hl (not_or.mp hstays).1 now, hu⟩
        exact keepsInv_next (hi.store_standsAt ⟨rfl, rfl, rfl, by simp⟩ (slot_lt hx) hy rfl)
    · exact keepsInv_next (hi.store_idle ⟨rfl, rfl, rfl, by simp⟩ (releasedSession_legal _ _) rfl)
    · exact keepsInv_next
        (hi.store_idle ⟨rfl, rfl, rfl, rfl⟩ ((resumed_live hl).legal ((resumed_inUse x).trans hu)) rfl)

/-- An idle machine keeps the invariant, with a command on the port or without. -/
theorem step_idle_keepsInv (hi : s.Inv) (hp : s.phase = .idle) : KeepsInv (step s) := by
  cases hc : s.port with
  | none => rw [step_of_idle_quiet hp hc]; exact keepsInv_next hi
  | some c =>
    have hf : fetch s = .instr (.hostCmd c) { s with port := none } := by simp [fetch_idle hp, fetchCommand, hc]
    have hi' : State.Inv { s with port := none } := hi.of_slots rfl rfl rfl rfl hi.phase
    by_cases hcode : c.code.toNat ≤ 4
    · obtain ⟨htick, hstop, hgetframe, hresume⟩ := exec_session_command_keepsInv hi' hp c.handle
      rcases decodeCommand_cases hcode with ⟨-, hd⟩ | hd | hd | hd | hd <;> rw [step_of_instr hf hd]
      · exact exec_start_keepsInv hi' hp _ _ _ _ _ _ _
      · exact htick _
      · exact hstop
      · exact hgetframe
      · exact hresume
    · rw [step_reservedCommand hp hc (by omega)]; simp

end Commands

/-! ## Every step -/

section InCommand

variable {s : State} {h : Nat} {x : Session} {src : Source} (hi : s.Inv) (hq : s.port = none)
  (hx : s.slots[h]? = some x) (hs : sourceOf s x = some src)

include hi hq hx hs

theorem step_header_keepsInv {restart : Bool} (hp : s.phase = .header h restart)
    (hst : x.StandsAt s.cfg s (.header h restart)) : KeepsInv (step s) := by
  have hf : fetch s = fetchHeader s h src x := fetch_slot hq hx hs (by rw [fetchPlace, hp])
  rcases openHeader_cases x with ⟨-, ho⟩ | ⟨-, ho⟩
  · rw [step_of_done (by rw [hf, fetchHeader, ho])]
    have hrewound : ({ x with offset := 0 } : Session).Live s.cfg s := { hst.live with offset := Nat.zero_le _ }
    exact keepsInv_next (raiseFatal_inv hi (hrewound.canTrap hst.inUse) h .truncated)
  · obtain ⟨magic, unused, fps, hd⟩ :=
      decodeFileHdr_of_length (bytes := (srcRead src 0 Config.fileHdr).take 8) (by simp [Config.fileHdr])
    have hf' : fetch s = .instr (.fileHdr ((srcRead src 0 Config.fileHdr).take 8)) s := by rw [hf, fetchHeader, ho]
    rw [step_of_instr hf' hd]
    exact exec_filehdr_keepsInv hi hx hp hst magic unused fps

theorem step_loop_keepsInv (hp : s.phase = .loop h) (hst : x.StandsAt s.cfg s (.loop h)) : KeepsInv (step s) := by
  have hf : fetch s = .done (.next (loopHead s h x)) := fetch_slot hq hx hs (by rw [fetchPlace, hp])
  rw [step_of_done hf]
  exact keepsInv_next (loopHead_inv hi hx hst.inUse hst.live)

theorem step_fetch_keepsInv (hp : s.phase = .fetch h) (hst : x.StandsAt s.cfg s (.fetch h)) : KeepsInv (step s) := by
  have hf : fetch s = fetchChunk s h src x := fetch_slot hq hx hs (by rw [fetchPlace, hp])
  rw [fetchChunk] at hf
  split at hf
  · rw [step_of_done hf]
    exact keepsInv_next (raiseFatal_inv hi (hst.live.canTrap hst.inUse) h .truncated)
  · obtain ⟨tag, hd, hfields⟩ := chunkFields_of_length (srcRead_length src x.offset.toNat 8)
    have hdec : decode s.cfg (.chunkHdr (srcRead src x.offset.toNat 8)) = decodeTag s.cfg tag hd := by
      simp [decode, decodeChunkHdr, hfields]
    rcases decodeTag_cases s.cfg tag hd with htag | ⟨i, hmem, htag⟩
    · rw [step_of_illegal hf (hdec.trans htag)]
      simp only [illegal, hfields]
      exact atChunk_keepsInv hi hx hp hst fun y hl hc =>
        keepsInv_next (raiseFatal_inv hi (hl.canTrap hc.inUse) h .badOpcode)
    · rw [step_of_instr hf (hdec.trans htag)]
      exact exec_chunk_keepsInv hi hx hp hst hmem

theorem step_video_keepsInv {pos : VideoPos} (hp : s.phase = .video h pos) (hst : x.StandsAt s.cfg s (.video h pos)) :
    KeepsInv (step s) := by
  have hf : fetch s = fetchVideo s h pos x := fetch_slot hq hx hs (by rw [fetchPlace, hp])
  have hv : x.InVideo pos := hst.phase
  cases pos with
  | node =>
    rw [fetchVideo] at hf
    split at hf
    · next hleaf =>
      exact fetchOpcode_keepsInv hi hx hp hf (fun _ _ => rfl) ⟨hst.live, hv, hleaf⟩ fun y code hiy hy ha =>
        exec_qop8_keepsInv hiy hy hp ha code
    · rw [step_of_done hf]
      exact endChunk_keepsInv hi (slot_lt hx) (hv.frameComplete_canAdvance hst.live)
  | child j =>
    have ha : x.AtOpcode s.cfg s := ⟨hst.live, { hv with child := fun hne => absurd rfl hne }, hv.child (by simp)⟩
    exact fetchOpcode_keepsInv hi hx hp hf (fun _ _ => rfl) ha fun y code hiy hy hay =>
      exec_qop4_keepsInv hiy hy hp hay code

theorem step_audio_keepsInv {stereo : Bool} (hp : s.phase = .audio h stereo)
    (hst : x.StandsAt s.cfg s (.audio h stereo)) : KeepsInv (step s) := by
  have hf : fetch s = fetchAudio s h stereo x := fetch_slot hq hx hs (by rw [fetchPlace, hp])
  rw [fetchAudio] at hf
  split at hf
  · next hpos =>
    split at hf
    · next d _ =>
      rw [step_of_instr hf rfl]
      simp only [exec, execDelta, hp, hx]
      exact commit_keepsInv hi (slot_lt hx) rfl
        (inAudio_standsAt (deltaStep_live hst.live stereo d) (deltaStep_inAudio hst.phase hpos d))
    · rw [step_of_done hf]; exact keepsInv_fault _
  · rw [step_of_done hf]
    exact endChunk_keepsInv hi (slot_lt hx) (pushAudio_canAdvance hst.live hst.phase)

end InCommand

/-- Settles O52, by the phase: on an idle machine the commands, inside a command the step of the phase, whose slot the
invariant describes. -/
theorem invKeptByEveryStep : Obligations.InvKeptByEveryStep := by
  unfold Obligations.InvKeptByEveryStep
  intro s t hi ht
  suffices KeepsInv (step s) from this t ht
  have hslot : ∀ {h}, s.phase.slot = some h → ∃ x src, s.port = none ∧ s.slots[h]? = some x ∧
      sourceOf s x = some src ∧ x.StandsAt s.cfg s s.phase := fun {h} hp => by
    have hquiet : s.port = none := (step_next_quiet ht).resolve_left fun hidle => by rw [hidle] at hp; cases hp
    obtain ⟨x, hx, hst⟩ := hi.standsAt hp
    obtain ⟨src, hs⟩ := hi.sourcesKept hx hst.inUse
    exact ⟨x, src, hquiet, hx, hs, hst⟩
  cases hp : s.phase <;> rw [hp] at hslot
  case idle => exact step_idle_keepsInv hi hp
  case header h restart =>
    obtain ⟨x, src, hq, hx, hs, hst⟩ := hslot rfl
    exact step_header_keepsInv hi hq hx hs hp hst
  case loop h =>
    obtain ⟨x, src, hq, hx, hs, hst⟩ := hslot rfl
    exact step_loop_keepsInv hi hq hx hs hp hst
  case fetch h =>
    obtain ⟨x, src, hq, hx, hs, hst⟩ := hslot rfl
    exact step_fetch_keepsInv hi hq hx hs hp hst
  case video h pos =>
    obtain ⟨x, src, hq, hx, hs, hst⟩ := hslot rfl
    exact step_video_keepsInv hi hq hx hs hp hst
  case audio h stereo =>
    obtain ⟨x, src, hq, hx, hs, hst⟩ := hslot rfl
    exact step_audio_keepsInv hi hq hx hs hp hst

end Sys2Proof.Machine
end

section
/-! What a step runs at each place (30_encoding R109), and the frame a completed VIDEO chunk hands out (20_memory R71). -/

namespace Sys2Proof.Machine

/-! ## A step at the place where the machine stands -/

/-- An idle machine runs the command on the port (30_encoding R107). -/
theorem step_command {s : State} {c : PortWord} {i : Instr} (hp : s.phase = .idle) (hc : s.port = some c)
    (hd : decode s.cfg (.hostCmd c) = .ok i) : step s = exec i { s with port := none } := by
  have hf : fetch s = .instr (.hostCmd c) { s with port := none } := by simp [fetch_idle hp, fetchCommand, hc]
  exact step_of_instr hf hd

section InCommand

variable {s : State} {h : Nat} {x y : Session} {src : Source} {i : Instr} (hq : s.port = none)
  (hx : s.slots[h]? = some x) (hs : sourceOf s x = some src)

include hq hx hs

/-- With 16 bytes of source the first 8 are the file header (40_chunk_reader R137). -/
theorem step_fileHdr {restart : Bool} (hp : s.phase = .header h restart) (hlen : 16 ≤ x.srcLen.toNat)
    (hd : decode s.cfg (.fileHdr ((srcRead src 0 16).take 8)) = .ok i) : step s = exec i s := by
  have hf : fetch s = fetchHeader s h src x := fetch_slot hq hx hs (by rw [fetchPlace, hp])
  rcases openHeader_cases x with ⟨hshort, -⟩ | ⟨-, ho⟩
  · omega
  · exact step_of_instr (by rw [hf, fetchHeader, ho]; rfl) hd

/-- With 8 bytes at OFFSET they are the chunk header (40_chunk_reader R130). -/
theorem step_chunkHdr (hp : s.phase = .fetch h) (hlen : x.offset.toNat + 8 ≤ x.srcLen.toNat)
    (hd : decode s.cfg (.chunkHdr (srcRead src x.offset.toNat 8)) = .ok i) : step s = exec i s := by
  have hf : fetch s = fetchChunk s h src x := fetch_slot hq hx hs (by rw [fetchPlace, hp])
  have hroom : ¬ x.remaining < Config.chunkHdr := by rw [Session.remaining, Config.chunkHdr]; omega
  exact step_of_instr (by rw [hf, fetchChunk, if_neg hroom]) hd

/-- The opcode of a node is the next one of the cache (43_quadtree_video R183, R184). -/
theorem step_qop8 {code : BitVec 2} (hp : s.phase = .video h .node) (hleaf : x.leaf < x.atN)
    (ho : nextOpcode x = .ok (code, y)) (hd : decode s.cfg (.qop8 code) = .ok i) : step s = exec i (s.setSlot h y) := by
  have hf : fetch s = fetchVideo s h .node x := fetch_slot hq hx hs (by rw [fetchPlace, hp])
  exact step_of_instr (by rw [hf, fetchVideo, if_pos hleaf, fetchOpcode, ho]) hd

/-- The opcode of a child is the next one of the cache (43_quadtree_video R183, R184). -/
theorem step_qop4 {j : Fin 4} {code : BitVec 2} (hp : s.phase = .video h (.child j))
    (ho : nextOpcode x = .ok (code, y)) (hd : decode s.cfg (.qop4 code) = .ok i) : step s = exec i (s.setSlot h y) := by
  have hf : fetch s = fetchVideo s h (.child j) x := fetch_slot hq hx hs (by rw [fetchPlace, hp])
  exact step_of_instr (by rw [hf, fetchVideo, fetchOpcode, ho]) hd

/-- The next byte of an audio payload (45_audio R261, R262). -/
theorem step_delta {stereo : Bool} {d : Byte} (hp : s.phase = .audio h stereo) (hpos : x.audioPos < deltaCount stereo x)
    (hb : x.payload[x.audioPos]? = some d) (hd : decode s.cfg (.delta d) = .ok i) : step s = exec i s := by
  have hf : fetch s = fetchAudio s h stereo x := fetch_slot hq hx hs (by rw [fetchPlace, hp])
  exact step_of_instr (by rw [hf, fetchAudio, if_pos hpos, hb]) hd

/-- When every node is done the frame is complete and the chunk ends (43_quadtree_video R183, R196). -/
theorem step_frameComplete (hp : s.phase = .video h .node) (hleaf : x.atN ≤ x.leaf) :
    step s = endChunk s h (.ok (frameComplete x)) := by
  have hf : fetch s = fetchVideo s h .node x := fetch_slot hq hx hs (by rw [fetchPlace, hp])
  exact step_of_done (by rw [hf, fetchVideo, if_neg (Nat.not_lt.mpr hleaf)])

end InCommand

/-- Settles O5, place by place: at each the fetch finds the object there, and a step runs what it decodes to. -/
theorem stepRunsTheDecodedInstruction : Obligations.StepRunsTheDecodedInstruction := by
  unfold Obligations.StepRunsTheDecodedInstruction
  refine ⟨fun s c i hp hc hd => step_command hp hc hd, ?_, ?_, ?_, ?_, ?_⟩
  · intro s h restart x src i hp hq hx hlen hs hd
    exact step_fileHdr hq hx hs hp hlen hd
  · intro s h x src i hp hq hx hlen hs hd
    exact step_chunkHdr hq hx hs hp hlen hd
  · intro s h x y src code i hp hq hx hs hleaf ho hd
    exact step_qop8 hq hx hs hp hleaf ho hd
  · intro s h j x y src code i hp hq hx hs ho hd
    exact step_qop4 hq hx hs hp ho hd
  · intro s h stereo x src d i hp hq hx hs hpos hb hd
    exact step_delta hq hx hs hp hpos hb hd

/-! ## The frame of a completed VIDEO chunk -/

/-- A step inside a command that has a successor found no command on the port, and in its slot a session whose source is
the one START opened. -/
theorem slot_of_step_next {s t : State} {h : Nat} (hp : s.phase.slot = some h) (ht : step s = .next t) :
    ∃ x src, s.port = none ∧ s.slots[h]? = some x ∧ sourceOf s x = some src := by
  have hq : s.port = none := (step_next_quiet ht).resolve_left fun hidle => by rw [hidle] at hp; cases hp
  obtain ⟨k, hk⟩ := fetchPlace_of_slot hp
  cases hx : s.slots[h]? with
  | none =>
    rw [step_of_done (by rw [fetch_quiet hq, hk, withSlot, hx])] at ht
    cases ht
  | some x =>
    cases hs : sourceOf s x with
    | none =>
      rw [step_of_done (by rw [fetch_quiet hq, hk, withSlot_changed hx hs])] at ht
      cases ht
    | some src => exact ⟨x, src, hq, rfl, hs⟩

/-- What frame completion presents: the writing bank, in the present size (43_quadtree_video R196). -/
theorem frameComplete_presents (x : Session) :
    (frameComplete x).disp = x.wr ∧ (frameComplete x).frW = x.w ∧ (frameComplete x).frH = x.h ∧
      (frameComplete x).bpp = x.bpp := by
  simp only [frameComplete]; split <;> simp

@[simp] theorem advance_bank (x : Session) (b : BankId) : (advance x).bank b = x.bank b := by cases b <;> rfl

/-- The reference handed out now reads the presented bank of its slot (44_scheduler R231). -/
theorem frameRef_read {t : State} {h : Nat} {y : Session} (hy : t.slots[h]? = some y) (a : Nat) :
    (frameRef t h y).read t a =
      if a < y.frH.toNat * (y.frW.toNat * y.bpp.bytes) then some ((y.bank y.disp).read a) else none := by
  rw [FrameRef.read_good (f := frameRef t h y) hy rfl]
  simp [frameRef]

/-- Settles O33: the bank presented is the writing bank of the completed frame, which neither the seeding copy nor the end
of the chunk changes. -/
theorem presentedFrameIsTheOneWritten : Obligations.PresentedFrameIsTheOneWritten := by
  unfold Obligations.PresentedFrameIsTheOneWritten
  intro s t h x y hp hx hleaf ht hy a
  obtain ⟨x', src, hq, hx', hs⟩ := slot_of_step_next (h := h) (by rw [hp]; rfl) ht
  obtain rfl : x = x' := Option.some.inj (hx.symm.trans hx')
  rw [step_frameComplete hq hx hs hp hleaf, endChunk_ok] at ht
  obtain rfl := Host.Outcome.next.inj ht
  obtain rfl : retireChunk s.freeCount (advance (frameComplete x)) = y :=
    Option.some.inj ((slots_setSlot_self s h _ (slot_lt hx)).symm.trans hy)
  obtain ⟨hdisp, hw, hh, hbpp⟩ := frameComplete_presents x
  rw [frameRef_read hy]
  simp [hdisp, hw, hh, hbpp, (frameComplete_banks x).1]

end Sys2Proof.Machine
end

section
/-! The tiles VQ8, VQ4 and QUAD2 draw (43_quadtree_video R188, R192, R193, R195). -/

namespace Sys2Proof.Machine

/-! ## A session whose operand bytes are read and whose blocks are drawn -/

/-- `x` with the payload pointer at `n` and `f` as the writing bank. -/
def Session.drawn (x : Session) (f : Surface) (n : Nat) : Session :=
  { x.setBank x.wr f with pptr := BitVec.ofNat 17 n }

theorem setBank_bank (x : Session) (b : BankId) : x.setBank b (x.bank b) = x := by cases b <;> rfl

theorem setBank_setBank (x : Session) (b : BankId) (f g : Surface) : (x.setBank b f).setBank b g = x.setBank b g := by
  cases b <;> rfl

section Drawn

variable (x : Session) (f g : Surface) (m n : Nat)

@[simp] theorem drawn_pptr : (x.drawn f n).pptr = BitVec.ofNat 17 n := rfl
@[simp] theorem drawn_payload : (x.drawn f n).payload = x.payload := setBank_payload ..
@[simp] theorem drawn_cLen : (x.drawn f n).cLen = x.cLen := setBank_cLen ..
@[simp] theorem drawn_n2 : (x.drawn f n).n2 = x.n2 := setBank_n2 ..
@[simp] theorem drawn_cb2 : (x.drawn f n).cb2 = x.cb2 := setBank_cb2 ..
@[simp] theorem drawn_addrTable : (x.drawn f n).addrTable = x.addrTable := setBank_addrTable ..
@[simp] theorem drawn_w : (x.drawn f n).w = x.w := setBank_w ..
@[simp] theorem drawn_h : (x.drawn f n).h = x.h := setBank_h ..
@[simp] theorem drawn_bpp : (x.drawn f n).bpp = x.bpp := setBank_bpp ..
@[simp] theorem drawn_wr : (x.drawn f n).wr = x.wr := setBank_wr ..

@[simp] theorem drawn_bank_wr : (x.drawn f n).bank x.wr = f := by
  have hbank : ∀ b, (x.drawn f n).bank b = (x.setBank x.wr f).bank b := fun b => by cases b <;> rfl
  rw [hbank, bank_setBank_self]

@[simp] theorem drawn_pixelOff (col row : Nat) : pixelOff (x.drawn f n) col row = pixelOff x col row := by
  simp [pixelOff, Session.line]

/-- Storing into a drawn session draws on. -/
theorem drawn_setBank : (x.drawn f n).setBank x.wr g = x.drawn g n := by
  have hset : ∀ b, (x.drawn f n).setBank b g = { (x.setBank x.wr f).setBank b g with pptr := BitVec.ofNat 17 n } :=
    fun b => by cases b <;> rfl
  rw [hset, setBank_setBank, Session.drawn]

/-- Before its first operand a session is drawn to itself. -/
theorem drawn_self : x.drawn (x.bank x.wr) x.pptr.toNat = x := by
  simp only [Session.drawn, setBank_bank, BitVec.ofNat_toNat, BitVec.setWidth_eq]

end Drawn

/-! ## The operations of the opcodes, where none raises an error -/

/-- The operand byte at PPTR is read and PPTR steps on (43_quadtree_video R185). -/
theorem nextByte_ok {x : Session} {b : Byte} (hlt : x.pptr.toNat < x.cLen.toNat)
    (hb : x.payload[x.pptr.toNat]? = some b) :
    nextByte x = .ok (b, { x with pptr := BitVec.ofNat 17 (x.pptr.toNat + 1) }) := by
  rw [nextByte, if_neg (by omega), hb]

theorem nextByte_drawn {x : Session} {f : Surface} {n : Nat} {b : Byte} (hlen : x.cLen.toNat ≤ Config.maxChunk)
    (hn : n < x.cLen.toNat) (hb : x.payload[n]? = some b) : nextByte (x.drawn f n) = .ok (b, x.drawn f (n + 1)) := by
  have hpptr : (x.drawn f n).pptr.toNat = n := pptr_toNat hn.le hlen
  have hnext := nextByte_ok (x := x.drawn f n) (b := b) (by simpa only [hpptr, drawn_cLen] using hn)
    (by simpa only [hpptr, drawn_payload] using hb)
  rw [hpptr] at hnext
  exact hnext

theorem tileLookup_ok {cb : List Tile} {n : BitVec 9} {k : Byte} {tile : Tile} (hk : k.toNat < n.toNat)
    (ht : cb[k.toNat]? = some tile) (x : Session) : tileLookup x cb n k = .ok tile := by
  simp [tileLookup, Nat.not_le.mpr hk, ht]

/-- A block written over a drawn session, in the coordinates of the session it was drawn from. -/
theorem Surface.Wrote.of_drawn {x : Session} {f g : Surface} {m n col row : Nat} {byte : Nat → Nat → Nat → Byte}
    (hf : f.Wrote (x.drawn g m) n col row byte) :
    (∀ r < n, ∀ c < n, ∀ i < x.bpp.bytes, f.read (pixelOff x (col + c) (row + r) + i) = byte r c i) ∧
      (∀ a, (∀ r < n, ∀ c < n, ∀ i < x.bpp.bytes, a ≠ pixelOff x (col + c) (row + r) + i) → f.read a = g.read a) := by
  obtain ⟨hin, hout⟩ := hf
  simp only [drawn_bpp, drawn_pixelOff, drawn_wr, drawn_bank_wr] at hin hout
  exact ⟨hin, hout⟩

/-- A block inside the W x H area is stored (43_quadtree_video R195). -/
theorem storeBlock_drawn {x : Session} {g : Surface} {m n col row : Nat} (hc : col + n ≤ x.w.toNat)
    (hr : row + n ≤ x.h.toNat) (byte : Nat → Nat → Nat → Byte) :
    ∃ f : Surface, storeBlock (x.drawn g m) n col row byte = .ok (x.drawn f m) ∧
      f.Wrote (x.drawn g m) n col row byte := by
  rcases storeBlock_cases (x.drawn g m) n col row byte with ⟨hout, -⟩ | ⟨-, -, f, h, -, hin, hother⟩
  · exact absurd ⟨by simpa using hc, by simpa using hr⟩ hout
  · exact ⟨f, by rw [h, drawn_wr, drawn_setBank], hin, hother⟩

/-! ## VQ8 and VQ4 -/

/-- The block of tile `k` is drawn at AT entry `i` (43_quadtree_video R188, R192). -/
theorem vqBlock_ok {x : Session} {n i : Nat} {cb : List Tile} {k : Byte} {tile : Tile} {col row : Nat}
    (hlt : x.pptr.toNat < x.cLen.toNat) (hb : x.payload[x.pptr.toNat]? = some k) (hk : k.toNat < x.n4.toNat)
    (ht : cb[k.toNat]? = some tile) (he : x.addrTable[i]? = some (col, row)) (hc : col + n ≤ x.w.toNat)
    (hr : row + n ≤ x.h.toNat) :
    ∃ f : Surface, vqBlock n i cb x = .ok (x.drawn f (x.pptr.toNat + 1)) ∧
      f.Wrote x n col row fun r c i => byteAt (tile.px r c) i := by
  obtain ⟨f, hf, hwrote⟩ := storeBlock_drawn (g := x.bank x.wr) (m := x.pptr.toNat + 1) hc hr
    fun r c i => byteAt (tile.px r c) i
  obtain ⟨hin, hout⟩ := hwrote.of_drawn
  have hread : nextByte x = .ok (k, x.drawn (x.bank x.wr) (x.pptr.toNat + 1)) := by
    rw [nextByte_ok hlt hb, Session.drawn, setBank_bank]
  have hentry : tableEntry (x.drawn (x.bank x.wr) (x.pptr.toNat + 1)) i = .ok (col, row) := by simp [tableEntry, he]
  refine ⟨f, ?_, hin, hout⟩
  rw [vqBlock, hread, andThen_ok, tileLookup_ok hk ht, andThen_ok, hentry, andThen_ok, blit, hf]

/-- An opcode of a node that raises no error draws it (43_quadtree_video R183). -/
theorem atNode_eq_nodeDone {s : State} {h : Nat} {x y : Session} {k : Session → Res Session}
    (hp : s.phase = .video h .node) (hx : s.slots[h]? = some x) (hk : k x = .ok y) :
    atNode s (fun h => .video h .node) (fun x => (k x).andThen fun x1 => .ok (nextLeaf x1)) = .next (nodeDone s h y) := by
  simp only [atNode, hp, hx, hk]; rfl

/-- An opcode of a child that raises no error draws it (43_quadtree_video R189). -/
theorem atChild_eq_childDone {s : State} {h : Nat} {j : Fin 4} {x y : Session} {k : Fin 4 → Session → Res Session}
    (hp : s.phase = .video h (.child j)) (hx : s.slots[h]? = some x) (hk : k j x = .ok y) :
    atChild s k = .next (childDone s h j y) := by
  have hdone : atChild s k = .next { s.setSlot h (leafAfterChild j y) with phase := afterChild h j } := by
    simp only [atChild, hp, hx, hk, andThen_ok, commit_ok]
  rw [hdone]
  match j with
  | 0 | 1 | 2 | 3 => rfl

/-- Settles O27: the block VQ8 draws, at the node. -/
theorem vq8WritesTheTile : Obligations.Vq8WritesTheTile := by
  unfold Obligations.Vq8WritesTheTile
  intro s h x k tile col row hp hx hlt hb hk ht he hc hr
  obtain ⟨f, hf, hwrote⟩ := vqBlock_ok (n := 8) hlt hb hk ht he hc hr
  exact ⟨f, atNode_eq_nodeDone hp hx hf, hwrote⟩

/-- Settles O28: the block VQ4 draws, at the child. -/
theorem vq4WritesTheTile : Obligations.Vq4WritesTheTile := by
  unfold Obligations.Vq4WritesTheTile
  intro s h j x k tile col row hp hx hlt hb hk ht he hc hr
  obtain ⟨f, hf, hwrote⟩ := vqBlock_ok (n := 4) hlt hb hk ht he hc hr
  exact ⟨f, atChild_eq_childDone hp hx hf, hwrote⟩

/-! ## QUAD2 -/

/-- `f` is the writing bank of `x` after the first `m` of the four 2 x 2 quadrants of the 4 x 4 block at (col, row) were
drawn, quadrant `q` with tile `ts q` (43_quadtree_video R193). -/
structure Surface.WroteQuads (x : Session) (col row m : Nat) (ts : Nat → Tile) (f : Surface) : Prop where
  inside : ∀ q < m, ∀ r < 2, ∀ c < 2, ∀ i < x.bpp.bytes,
    f.read (pixelOff x (col + 2 * (q % 2) + c) (row + 2 * (q / 2) + r) + i) = byteAt ((ts q).px r c) i
  outside : ∀ a, (∀ q < m, ∀ r < 2, ∀ c < 2, ∀ i < x.bpp.bytes,
    a ≠ pixelOff x (col + 2 * (q % 2) + c) (row + 2 * (q / 2) + r) + i) → f.read a = (x.bank x.wr).read a

theorem wroteQuads_zero (x : Session) (col row : Nat) (ts : Nat → Tile) : (x.bank x.wr).WroteQuads x col row 0 ts :=
  ⟨fun _ hq => absurd hq (Nat.not_lt_zero _), fun _ _ => rfl⟩

/-- The next quadrant leaves the ones before it as they are: no two of them share a pixel. -/
theorem Surface.WroteQuads.succ {x : Session} {col row m : Nat} {ts : Nat → Tile} {f g : Surface} {n : Nat}
    (hg : g.WroteQuads x col row m ts) (hm : m < 4) (hc : col + 4 ≤ x.w.toNat)
    (hf : f.Wrote (x.drawn g n) 2 (col + 2 * (m % 2)) (row + 2 * (m / 2)) fun r c i => byteAt ((ts m).px r c) i) :
    f.WroteQuads x col row (m + 1) ts := by
  obtain ⟨hin, hout⟩ := hf.of_drawn
  refine ⟨fun q hq r hr c hcn i hi => ?_, fun a ha => ?_⟩
  · rcases Nat.lt_succ_iff_lt_or_eq.mp hq with hq | rfl
    · rw [hout, hg.inside q hq r hr c hcn i hi]
      intro r' hr' c' hc' i' hi' heq
      obtain ⟨hcol, hrow, -⟩ := pixelOff_inj (by omega) (by omega) hi hi' heq
      omega
    · exact hin r hr c hcn i hi
  · rw [hout a (ha m (Nat.lt_succ_self m)), hg.outside a fun q hq => ha q (Nat.lt_succ_of_lt hq)]

/-- Four quadrants are the 4 x 4 block. -/
theorem Surface.WroteQuads.wrote {x : Session} {col row : Nat} {ts : Nat → Tile} {f : Surface}
    (hf : f.WroteQuads x col row 4 ts) :
    f.Wrote x 4 col row fun r c i => byteAt ((ts (2 * (r / 2) + c / 2)).px (r % 2) (c % 2)) i where
  inside r hr c hc i hi := by
    have hq := hf.inside (2 * (r / 2) + c / 2) (by omega) (r % 2) (by omega) (c % 2) (by omega) i hi
    rwa [show col + 2 * ((2 * (r / 2) + c / 2) % 2) + c % 2 = col + c by omega,
      show row + 2 * ((2 * (r / 2) + c / 2) / 2) + r % 2 = row + r by omega] at hq
  outside a ha := hf.outside a fun q hq r hr c hc i hi => by
    rw [Nat.add_assoc col, Nat.add_assoc row]
    exact ha _ (by omega) _ (by omega) i hi

/-- The operands of QUAD2 from PPTR on: `ks m` is code `m`, below N2, and `ts m` its tile. -/
def Session.QuadOperand (x : Session) (ks : Nat → Byte) (ts : Nat → Tile) (m : Nat) : Prop :=
  x.payload[x.pptr.toNat + m]? = some (ks m) ∧ (ks m).toNat < x.n2.toNat ∧ x.cb2[(ks m).toNat]? = some (ts m)

/-- Quadrant `m` is drawn after the `m` before it (43_quadtree_video R193). -/
theorem quadBlock_ok {x : Session} {g : Surface} {ks : Nat → Byte} {ts : Nat → Tile} {col row m : Nat}
    (hlen : x.cLen.toNat ≤ Config.maxChunk) (hlt : x.pptr.toNat + m < x.cLen.toNat) (ho : x.QuadOperand ks ts m)
    (hm : m < 4) (hc : col + 4 ≤ x.w.toNat) (hr : row + 4 ≤ x.h.toNat) (hg : g.WroteQuads x col row m ts) :
    ∃ f : Surface, quadBlock (col + 2 * (m % 2)) (row + 2 * (m / 2)) (x.drawn g (x.pptr.toNat + m)) =
        .ok (x.drawn f (x.pptr.toNat + (m + 1))) ∧ f.WroteQuads x col row (m + 1) ts := by
  obtain ⟨hb, hk, ht⟩ := ho
  obtain ⟨f, hf, hwrote⟩ := storeBlock_drawn (x := x) (g := g) (m := x.pptr.toNat + m + 1) (n := 2)
    (col := col + 2 * (m % 2)) (row := row + 2 * (m / 2)) (by omega) (by omega) fun r c i => byteAt ((ts m).px r c) i
  refine ⟨f, ?_, hg.succ hm hc hwrote⟩
  rw [quadBlock, nextByte_drawn hlen hlt hb, andThen_ok, drawn_cb2, drawn_n2, tileLookup_ok hk ht, andThen_ok, blit, hf]
  rfl

/-- QUAD2 draws the four quadrants of AT entry `i` (43_quadtree_video R193). -/
theorem quadBlocks_ok {x : Session} {i : Nat} {ks : Nat → Byte} {ts : Nat → Tile} {col row : Nat}
    (hlen : x.cLen.toNat ≤ Config.maxChunk) (hfit : x.pptr.toNat + 4 ≤ x.cLen.toNat)
    (ho : ∀ m < 4, x.QuadOperand ks ts m) (he : x.addrTable[i]? = some (col, row)) (hc : col + 4 ≤ x.w.toNat)
    (hr : row + 4 ≤ x.h.toNat) :
    ∃ f : Surface, quadBlocks i x = .ok (x.drawn f (x.pptr.toNat + 4)) ∧ f.WroteQuads x col row 4 ts := by
  have hdraw : ∀ {m : Nat} {g : Surface}, m < 4 → g.WroteQuads x col row m ts →
      ∃ f : Surface, quadBlock (col + 2 * (m % 2)) (row + 2 * (m / 2)) (x.drawn g (x.pptr.toNat + m)) =
        .ok (x.drawn f (x.pptr.toNat + (m + 1))) ∧ f.WroteQuads x col row (m + 1) ts :=
    fun {m g} hm hg => quadBlock_ok hlen (by omega) (ho m hm) hm hc hr hg
  obtain ⟨f1, h1, hf1⟩ := hdraw (by decide) (wroteQuads_zero x col row ts)
  obtain ⟨f2, h2, hf2⟩ := hdraw (by decide) hf1
  obtain ⟨f3, h3, hf3⟩ := hdraw (by decide) hf2
  obtain ⟨f4, h4, hf4⟩ := hdraw (by decide) hf3
  have hentry : tableEntry x i = .ok (col, row) := by simp [tableEntry, he]
  simp only [Nat.reduceMod, Nat.reduceDiv, Nat.reduceMul, Nat.reduceAdd, Nat.add_zero, drawn_self] at h1 h2 h3 h4
  refine ⟨f4, ?_, hf4⟩
  rw [quadBlocks, hentry, andThen_ok, h1, andThen_ok, h2, andThen_ok, h3, andThen_ok, h4]

/-- Settles O30: the four quadrants QUAD2 draws are its 4 x 4 child. -/
theorem quad2WritesFourTiles : Obligations.Quad2WritesFourTiles := by
  unfold Obligations.Quad2WritesFourTiles
  intro s h j x ks ts col row hp hx hlen hfit ho he hc hr
  obtain ⟨f, hf, hquads⟩ := quadBlocks_ok hlen hfit ho he hc hr
  exact ⟨f, atChild_eq_childDone hp hx hf, hquads.wrote⟩

end Sys2Proof.Machine
end

section
/-! Isolation of the slots (20_memory R76, 44_scheduler R235): a step inside a command changes its own slot only and makes
the same change whatever the other slots hold; a command changes the slot it addresses, START a free one. -/

namespace Sys2Proof.Machine

/-! ## The change a step inside a command makes -/

/-- What a step inside a command writes: its slot, where the machine stands, the answer and the model's counter. -/
structure Change where
  slot : Session
  phase : Phase
  result : Option Result
  freeCount : Nat

/-- The change made in slot `h` of a state. -/
def Change.apply (c : Change) (h : Nat) (s : State) : State :=
  { s with slots := s.slots.set h c.slot, phase := c.phase, result := c.result, freeCount := c.freeCount }

/-- The outcome of a step on slot `h` of `s` that makes a change, faults or is refused. -/
def changeOutcome (h : Nat) (s : State) : Host.Outcome Change Fault Refusal → Host.Outcome State Fault Refusal
  | .next c => .next (c.apply h s)
  | .fault f => .fault f
  | .refused r => .refused r

/-- With `x` in slot `h`, the operation makes one and the same change in that slot, whatever the other slots hold. -/
def Local (s : State) (h : Nat) (x : Session) (g : State → Host.Outcome State Fault Refusal) : Prop :=
  ∃ o, ∀ l : List Session, l[h]? = some x → g { s with slots := l } = changeOutcome h { s with slots := l } o

section Operations

variable {s : State} {h : Nat} {x : Session}

theorem Local.congr {g g' : State → Host.Outcome State Fault Refusal} (hg' : Local s h x g')
    (hg : ∀ l : List Session, l[h]? = some x → g { s with slots := l } = g' { s with slots := l }) : Local s h x g := by
  obtain ⟨o, ho⟩ := hg'
  exact ⟨o, fun l hl => (hg l hl).trans (ho l hl)⟩

theorem local_fault (f : Fault) : Local s h x fun _ => .fault f := ⟨.fault f, fun _ _ => rfl⟩

theorem local_store (y : Session) (p : Phase) (r : Option Result) (n : Nat) :
    Local s h x fun t => .next { t with slots := t.slots.set h y, phase := p, result := r, freeCount := n } :=
  ⟨.next ⟨y, p, r, n⟩, fun _ _ => rfl⟩

/-- An operation that leaves its slot as it is. -/
theorem local_stay (p : Phase) (r : Option Result) : Local s h x fun t => .next { t with phase := p, result := r } := by
  refine ⟨.next ⟨x, p, r, s.freeCount⟩, fun l hl => ?_⟩
  obtain ⟨hlt, rfl⟩ := List.getElem?_eq_some_iff.mp hl
  simp [changeOutcome, Change.apply]

/-- An operation that works on its slot with `y` stored there. -/
theorem Local.setSlot {y : Session} {g : State → Host.Outcome State Fault Refusal} (hg : Local s h y g) :
    Local s h x fun t => g (t.setSlot h y) := by
  obtain ⟨o, ho⟩ := hg
  refine ⟨o, fun l hl => (ho (l.set h y) (by simp [(List.getElem?_eq_some_iff.mp hl).1])).trans ?_⟩
  cases o with
  | next c => simp [changeOutcome, Change.apply]
  | fault f => rfl
  | refused r => rfl

theorem raiseFatal_local (e : ErrCode) (y : Session) : Local s h x fun t => .next (raiseFatal t h e y) :=
  local_store (s := s) (retireChunk s.freeCount (trapEntry e y)) .idle (some (trapAnswer s.phase)) (s.freeCount + 1)

theorem commit_local (p : Phase) (r : Res Session) : Local s h x fun t => commit t h p r := by
  cases r with
  | ok y => exact local_store (s := s) y p s.result s.freeCount
  | raised e y => exact raiseFatal_local e y
  | stuck f => exact local_fault f

theorem endChunk_local (r : Res Session) : Local s h x fun t => endChunk t h r := by
  cases r with
  | ok y => exact local_store (s := s) (retireChunk s.freeCount (advance y)) (.loop h) s.result (s.freeCount + 1)
  | raised e y => exact raiseFatal_local e y
  | stuck f => exact local_fault f

/-! ## The catch-up loop and the header parse -/

theorem loopHead_local : Local s h x fun t => .next (loopHead t h x) := by
  simp only [loopHead, endOfData]
  split_ifs
  · exact local_store (s := s) { x with status := .idle } (.loop h) s.result s.freeCount
  · exact local_stay (.header h true) s.result
  · exact local_store (s := s)
      { x with
        status := .endOfStream
        hasFrame := false
        fb0 := .unwritten s.freeCount
        fb1 := .unwritten (s.freeCount + 1) }
      (.loop h) s.result (s.freeCount + 2)
  · exact local_stay (.fetch h) s.result
  · exact local_stay .idle (some (.status x.status))

theorem exec_filehdr_local {restart : Bool} (hp : s.phase = .header h restart) (magic : BitVec 16) (unused : BitVec 32)
    (fps : BitVec 16) : Local s h x (exec (.filehdr magic unused fps)) := by
  cases hr : (openHeader x).andThen (loadHeader s.cfg magic fps) with
  | ok y =>
    cases restart with
    | false =>
      exact (local_store (s := s) y .idle (some (.handle h)) s.freeCount).congr fun l hl => by
        simp only [exec, execFilehdr, hp, hl, hr]; rfl
    | true =>
      exact (local_store (s := s) (restartRegs s.freeCount y) (.loop h) s.result (s.freeCount + 1)).congr fun l hl => by
        simp only [exec, execFilehdr, hp, hl, hr]; rfl
  | raised e y => exact (raiseFatal_local e y).congr fun l hl => by simp only [exec, execFilehdr, hp, hl, hr]
  | stuck f => exact (local_fault f).congr fun l hl => by simp only [exec, execFilehdr, hp, hl, hr]

/-! ## The chunks -/

/-- A chunk works on its slot only if its own rule does. -/
theorem atChunk_local {src : Source} {k : State → Nat → Session → Host.Outcome State Fault Refusal}
    {tag : State → BitVec 16} (hp : s.phase = .fetch h) (hs : sourceOf s x = some src)
    (htag : ∀ l, tag { s with slots := l } = tag s) (hd : ChunkHdr) (hk : ∀ y, Local s h x fun t => k t h y) :
    Local s h x fun t => atChunk t (tag t) hd (k t) := by
  have hsrc : ∀ l p, sourceOf { s with slots := l, phase := p } x = some src := fun _ _ => hs
  cases ho : openChunk (tag s) hd x with
  | ok y => exact (hk (loadPayload src y)).congr fun l hl => by simp only [htag]; simp only [atChunk, hp, hl, ho, hsrc]
  | raised e y => exact (raiseFatal_local e y).congr fun l hl => by simp only [htag]; simp only [atChunk, hp, hl, ho]
  | stuck f => exact (local_fault f).congr fun l hl => by simp only [htag]; simp only [atChunk, hp, hl, ho]

/-- Each of the seven chunks works on its slot only. -/
theorem exec_chunk_local {src : Source} {hd : ChunkHdr} {i : Instr} (hp : s.phase = .fetch h)
    (hs : sourceOf s x = some src)
    (hi : i ∈ [Instr.info hd, .codebook hd, .video hd, .hang hd, .audioMono hd, .audioStereo hd, .packet hd]) :
    Local s h x fun t => exec i t := by
  simp only [List.mem_cons, List.not_mem_nil, or_false] at hi
  rcases hi with rfl | rfl | rfl | rfl | rfl | rfl | rfl <;>
    simp only [exec, execInfo, execCodebook, execVideo, execHang, execAudioMono, execAudioStereo, execPacket] <;>
    refine atChunk_local hp hs (fun _ => rfl) hd fun y => ?_
  · exact (endChunk_local (doInfo s.cfg y)).congr fun _ _ => rfl
  · exact (endChunk_local (doCodebook s.cfg y)).congr fun _ _ => rfl
  · exact (commit_local (.video h .node) (.ok (openVideo s.cfg y))).congr fun _ _ => rfl
  · exact endChunk_local (.ok y)
  · split_ifs
    · exact endChunk_local (.ok y)
    · exact (commit_local (.audio h false) (.ok { y with accL := monoSeed s.cfg y, audioBuf := [], audioPos := 0 })).congr
        fun _ _ => rfl
  · split_ifs
    · exact endChunk_local (.ok y)
    · exact
        (commit_local (.audio h true)
          (.ok
            { y with
              accL := stereoSeed s.cfg y.cAux1
              accR := stereoSeed s.cfg y.cAux0
              audioBuf := []
              audioPos := 0 })).congr
          fun _ _ => rfl
  · exact endChunk_local (.ok { y with rawn := y.cAux })

/-! ## The video opcodes -/

theorem atNode_local (hp : s.phase = .video h .node) (next : Nat → Phase) (k : Session → Res Session) :
    Local s h x fun t => atNode t next k :=
  (commit_local (next h) (k x)).congr fun l hl => by simp only [atNode, hp, hl]

theorem atChild_local {j : Fin 4} (hp : s.phase = .video h (.child j)) (k : Fin 4 → Session → Res Session) :
    Local s h x fun t => atChild t k :=
  (commit_local (afterChild h j) ((k j x).andThen fun x1 => .ok (leafAfterChild j x1))).congr fun l hl => by
    simp only [atChild, hp, hl]

theorem exec_qop8_local (hp : s.phase = .video h .node) (code : BitVec 2) : Local s h x (exec (decodeQop8 code)) := by
  rcases decodeQop8_cases code with hc | hc | hc | hc <;> rw [hc] <;> exact atNode_local hp _ _

theorem exec_qop4_local {j : Fin 4} (hp : s.phase = .video h (.child j)) (code : BitVec 2) :
    Local s h x (exec (decodeQop4 code)) := by
  rcases decodeQop4_cases code with hc | hc | hc | hc <;> rw [hc] <;> exact atChild_local hp _

theorem exec_delta_local {stereo : Bool} (hp : s.phase = .audio h stereo) (d : Byte) : Local s h x (exec (.delta d)) :=
  (commit_local (.audio h stereo) (.ok (deltaStep stereo d x))).congr fun l hl => by
    simp only [exec, execDelta, hp, hl]

/-! ## Every step inside a command -/

/-- Where an opcode is due it is taken, or the payload is truncated; what it decodes to, `dec` of it, then works on the slot
with the opcode taken. -/
theorem fetchOpcode_local {enc : BitVec 2 → Encoded} {dec : BitVec 2 → Instr}
    (hf : ∀ l : List Session, l[h]? = some x → fetch { s with slots := l } = fetchOpcode { s with slots := l } h x enc)
    (hdec : ∀ p code, decode p (enc code) = .ok (dec code))
    (hexec : ∀ (y : Session) (code : BitVec 2), Local s h y (exec (dec code))) : Local s h x step := by
  cases ho : nextOpcode x with
  | ok oy => exact (hexec oy.2 oy.1).setSlot.congr fun l hl => step_of_instr (by rw [hf l hl, fetchOpcode, ho]) (hdec _ _)
  | raised e y => exact (raiseFatal_local e y).congr fun l hl => step_of_done (by rw [hf l hl, fetchOpcode, ho])
  | stuck f => exact (local_fault f).congr fun l hl => step_of_done (by rw [hf l hl, fetchOpcode, ho])

section InCommand

variable {src : Source} (hq : s.port = none) (hs : sourceOf s x = some src)

include hq hs

/-- With `x` in slot `h` the fetch finds what the place of the phase holds for `x`. -/
theorem fetch_local {k : State → Source → Session → Fetched}
    (hk : ∀ l, fetchPlace { s with slots := l } = withSlot { s with slots := l } h (k { s with slots := l })) :
    ∀ l : List Session, l[h]? = some x → fetch { s with slots := l } = k { s with slots := l } src x :=
  fun l hl => fetch_slot (s := { s with slots := l }) hq hl hs (hk l)

theorem step_header_local {restart : Bool} (hp : s.phase = .header h restart) : Local s h x step := by
  have hf := fetch_local (h := h) (k := fun t => fetchHeader t h) hq hs fun l => by simp only [fetchPlace, hp]
  rcases openHeader_cases x with ⟨-, ho⟩ | ⟨-, ho⟩
  · exact (raiseFatal_local .truncated { x with offset := 0 }).congr fun l hl =>
      step_of_done (by rw [hf l hl, fetchHeader, ho])
  · obtain ⟨magic, unused, fps, hd⟩ :=
      decodeFileHdr_of_length (bytes := (srcRead src 0 Config.fileHdr).take 8) (by simp [Config.fileHdr])
    have hf' : ∀ l : List Session, l[h]? = some x →
        fetch { s with slots := l } = .instr (.fileHdr ((srcRead src 0 Config.fileHdr).take 8)) { s with slots := l } :=
      fun l hl => by rw [hf l hl, fetchHeader, ho]
    exact (exec_filehdr_local hp magic unused fps).congr fun l hl => step_of_instr (hf' l hl) hd

theorem step_loop_local (hp : s.phase = .loop h) : Local s h x step := by
  have hf := fetch_local (h := h) (k := fun t _ y => .done (.next (loopHead t h y))) hq hs fun l => by
    simp only [fetchPlace, hp]
  exact loopHead_local.congr fun l hl => step_of_done (hf l hl)

theorem step_fetch_local (hp : s.phase = .fetch h) : Local s h x step := by
  have hf := fetch_local (h := h) (k := fun t => fetchChunk t h) hq hs fun l => by simp only [fetchPlace, hp]
  by_cases hroom : x.remaining < Config.chunkHdr
  · exact (raiseFatal_local .truncated x).congr fun l hl => step_of_done (by rw [hf l hl, fetchChunk, if_pos hroom])
  · have hf' : ∀ l : List Session, l[h]? = some x →
        fetch { s with slots := l } = .instr (.chunkHdr (srcRead src x.offset.toNat 8)) { s with slots := l } :=
      fun l hl => by rw [hf l hl, fetchChunk, if_neg hroom]
    obtain ⟨tag, hd, hfields⟩ := chunkFields_of_length (srcRead_length src x.offset.toNat 8)
    have hdec : decode s.cfg (.chunkHdr (srcRead src x.offset.toNat 8)) = decodeTag s.cfg tag hd := by
      simp [decode, decodeChunkHdr, hfields]
    rcases decodeTag_cases s.cfg tag hd with htag | ⟨i, hmem, htag⟩
    · have hunknown : Local s h x fun t => unknownChunk tag hd t :=
        atChunk_local (tag := fun _ => tag) hp hs (fun _ => rfl) hd fun y => raiseFatal_local .badOpcode y
      exact hunknown.congr fun l hl => by
        rw [step_of_illegal (hf' l hl) (hdec.trans htag)]
        simp only [illegal, hfields]
    · exact (exec_chunk_local hp hs hmem).congr fun l hl => step_of_instr (hf' l hl) (hdec.trans htag)

theorem step_video_local {pos : VideoPos} (hp : s.phase = .video h pos) : Local s h x step := by
  have hf := fetch_local (h := h) (k := fun t _ => fetchVideo t h pos) hq hs fun l => by simp only [fetchPlace, hp]
  cases pos with
  | node =>
    by_cases hleaf : x.leaf < x.atN
    · exact fetchOpcode_local (fun l hl => by rw [hf l hl, fetchVideo, if_pos hleaf]) (fun _ _ => rfl)
        fun y code => exec_qop8_local hp code
    · exact (endChunk_local (.ok (frameComplete x))).congr fun l hl =>
        step_of_done (by rw [hf l hl, fetchVideo, if_neg hleaf])
  | child j =>
    exact fetchOpcode_local (fun l hl => by rw [hf l hl, fetchVideo]) (fun _ _ => rfl) fun y code =>
      exec_qop4_local hp code

theorem step_audio_local {stereo : Bool} (hp : s.phase = .audio h stereo) : Local s h x step := by
  have hf := fetch_local (h := h) (k := fun t _ => fetchAudio t h stereo) hq hs fun l => by simp only [fetchPlace, hp]
  by_cases hpos : x.audioPos < deltaCount stereo x
  · cases hb : x.payload[x.audioPos]? with
    | none => exact (local_fault .noEntry).congr fun l hl => step_of_done (by rw [hf l hl, fetchAudio, if_pos hpos, hb])
    | some d =>
      exact (exec_delta_local hp d).congr fun l hl => step_of_instr (by rw [hf l hl, fetchAudio, if_pos hpos, hb]) rfl
  · exact (endChunk_local (.ok (pushAudio s.cfg x))).congr fun l hl =>
      step_of_done (by rw [hf l hl, fetchAudio, if_neg hpos])

/-- A step inside a command works on the slot of its phase only (20_memory R76). -/
theorem step_local (hp : s.phase.slot = some h) : Local s h x step := by
  cases hph : s.phase <;> rw [hph] at hp <;> cases hp
  case header restart => exact step_header_local hq hs hph
  case loop => exact step_loop_local hq hs hph
  case fetch => exact step_fetch_local hq hs hph
  case video pos => exact step_video_local hq hs hph
  case audio stereo => exact step_audio_local hq hs hph

end InCommand

end Operations

/-- Inside a command a step that goes on makes a change in its slot, the same one whatever the other slots hold. -/
theorem step_changes_slot {s t : State} {h : Nat} (hp : s.phase.slot = some h) (ht : step s = .next t) :
    ∃ c : Change, t = c.apply h s ∧
      ∀ l : List Session, l[h]? = s.slots[h]? → step { s with slots := l } = .next (c.apply h { s with slots := l }) := by
  obtain ⟨x, src, hq, hx, hs⟩ := slot_of_step_next hp ht
  obtain ⟨o, ho⟩ := step_local hq hs hp
  have hstep := ht.symm.trans (ho s.slots hx)
  cases o with
  | next c => exact ⟨c, Host.Outcome.next.inj hstep, fun l hl => ho l (hl.trans hx)⟩
  | fault f => cases hstep
  | refused r => cases hstep

/-- Settles O57: the change of a step inside a command is the same one with `z` in another slot. -/
theorem slotsDoNotInterfere : Obligations.SlotsDoNotInterfere := by
  unfold Obligations.SlotsDoNotInterfere
  intro s t h k z hp hne ht
  obtain ⟨c, rfl, hlocal⟩ := step_changes_slot hp ht
  rw [hlocal (s.slots.set k z) (List.getElem?_set_ne hne)]
  simp only [Change.apply, List.set_comm _ _ hne]

/-! ## The slot a command addresses -/

/-- `t` has the parameters, the sources and the slots of `s`, but for slot `h`. -/
structure State.OthersKept (s : State) (h : Nat) (t : State) : Prop where
  cfg : t.cfg = s.cfg
  sources : t.sources = s.sources
  others : ∀ k, k ≠ h → t.slots[k]? = s.slots[k]?

theorem Change.othersKept (c : Change) (h : Nat) (s : State) : s.OthersKept h (c.apply h s) :=
  ⟨rfl, rfl, fun _ hk => List.getElem?_set_ne hk.symm⟩

/-- If the outcome is a next state, only slot `h` of `s` changed. -/
def KeepsOthers (s : State) (h : Nat) (o : Host.Outcome State Fault Refusal) : Prop :=
  ∀ t, o = .next t → s.OthersKept h t

theorem keepsOthers_next {s t : State} {h : Nat} (ht : s.OthersKept h t) : KeepsOthers s h (.next t) :=
  fun _ heq => Host.Outcome.next.inj heq ▸ ht

theorem keepsOthers_answer (s : State) (h : Nat) (r : Result) : KeepsOthers s h (.next (s.answer r)) :=
  keepsOthers_next ⟨rfl, rfl, fun _ _ => rfl⟩

theorem keepsOthers_store {s t : State} {h : Nat} {y : Session} (hcfg : t.cfg = s.cfg) (hsrc : t.sources = s.sources)
    (hslots : t.slots = s.slots.set h y) : KeepsOthers s h (.next t) :=
  keepsOthers_next ⟨hcfg, hsrc, fun _ hk => by rw [hslots, List.getElem?_set_ne hk.symm]⟩

theorem onSession_keepsOthers {s : State} {h : Nat} {x : Session} {o : Host.Outcome State Fault Refusal}
    (ho : KeepsOthers s h o) : KeepsOthers s h (onSession s x o) := fun t ht => ho t (onSession_eq_next ht).2

/-- TICK, STOP, GETFRAME and RESUME change no slot but the one of their handle. -/
theorem exec_session_command_keepsOthers {s : State} (hp : s.phase = .idle) (handle : Nat) :
    (∀ now, KeepsOthers s handle (exec (.tick handle now) s)) ∧ KeepsOthers s handle (exec (.stop handle) s) ∧
      KeepsOthers s handle (exec (.getframe handle) s) ∧ KeepsOthers s handle (exec (.resume handle) s) := by
  have hanswer := keepsOthers_answer s handle
  simp only [exec, execTick, execStop, execGetframe, execResume, if_pos hp]
  cases session? s handle with
  | none => exact ⟨fun _ => hanswer _, hanswer _, hanswer _, hanswer _⟩
  | some x =>
    refine ⟨fun now => onSession_keepsOthers ?_, keepsOthers_store rfl rfl rfl, onSession_keepsOthers (hanswer _),
      onSession_keepsOthers (keepsOthers_store rfl rfl rfl)⟩
    split_ifs <;> exact keepsOthers_store rfl rfl rfl

/-- START changes no slot in use (44_scheduler R221 (1)). -/
theorem exec_start_keepsInUse {s t : State} (hp : s.phase = .idle) {srcId : Nat} {x y w h : BitVec 32} {flags : BitVec 4}
    {now : BitVec 48} (ht : exec (.start srcId x y w h flags now) s = .next t) :
    t.cfg = s.cfg ∧ t.sources = s.sources ∧
      ∀ (k : Nat) (z : Session), s.slots[k]? = some z → z.inUse = true → t.slots[k]? = some z := by
  simp only [exec, execStart, if_pos hp] at ht
  split at ht
  · cases ht; exact ⟨rfl, rfl, fun _ _ hz _ => hz⟩
  next i hslot =>
  split at ht
  · cases ht; exact ⟨rfl, rfl, fun _ _ hz _ => hz⟩
  split_ifs at ht
  · cases ht; exact ⟨rfl, rfl, fun _ _ hz _ => hz⟩
  · cases ht
    refine ⟨rfl, rfl, fun k z hz hu => ?_⟩
    have hne : i ≠ k := by
      rintro rfl
      obtain ⟨hlt, hfree, -⟩ := List.findIdx?_eq_some_iff_getElem.mp hslot
      obtain ⟨_, rfl⟩ := List.getElem?_eq_some_iff.mp hz
      simp [hu] at hfree
    exact (slots_setSlot_other s i k _ hne).trans hz

/-- What the step of an idle machine with the command `c` on the port keeps. -/
theorem step_command_keeps {s t : State} {c : PortWord} (hp : s.phase = .idle) (hc : s.port = some c)
    (ht : step s = .next t) :
    t.cfg = s.cfg ∧ t.sources = s.sources ∧
      (c.code = 0 → ∀ (k : Nat) (x : Session), s.slots[k]? = some x → x.inUse = true → t.slots[k]? = some x) ∧
      (c.code ≠ 0 → ∀ k, k ≠ c.handle → t.slots[k]? = s.slots[k]?) := by
  by_cases h0 : c.code = 0
  · have hd : decode s.cfg (.hostCmd c) = .ok (.start c.srcId c.x c.y c.w c.h c.flags c.now) := by
      simp [decode, decodeCommand, h0]
    rw [step_command hp hc hd] at ht
    obtain ⟨hcfg, hsrc, hkept⟩ := exec_start_keepsInUse (s := { s with port := none }) hp ht
    exact ⟨hcfg, hsrc, fun _ => hkept, fun hne => absurd h0 hne⟩
  · suffices hothers : KeepsOthers { s with port := none } c.handle (step s) by
      obtain ⟨hcfg, hsrc, hslots⟩ := hothers t ht
      exact ⟨hcfg, hsrc, fun h => absurd h h0, fun _ => hslots⟩
    obtain ⟨htick, hstop, hgetframe, hresume⟩ :=
      exec_session_command_keepsOthers (s := { s with port := none }) hp c.handle
    by_cases hcode : c.code.toNat ≤ 4
    · rcases decodeCommand_cases hcode with ⟨h, -⟩ | hd | hd | hd | hd
      · exact absurd h h0
      all_goals rw [step_command hp hc hd]
      · exact htick _
      · exact hstop
      · exact hgetframe
      · exact hresume
    · rw [step_reservedCommand hp hc (by omega)] at ht; cases ht

/-- Only an idle machine works for no slot. -/
theorem Phase.eq_idle_of_slot {p : Phase} (hp : p.slot = none) : p = .idle := by
  cases p with
  | idle => rfl
  | _ => cases hp

/-- Settles O56: inside a command the change is made in the slot of the phase; an idle machine runs the command on the port
or stands still. -/
theorem oneSlotChanges : Obligations.OneSlotChanges := by
  unfold Obligations.OneSlotChanges
  intro s t ht
  cases hslot : s.phase.slot with
  | some h =>
    obtain ⟨c, rfl, -⟩ := step_changes_slot hslot ht
    obtain ⟨hcfg, hsrc, hothers⟩ := c.othersKept h s
    refine ⟨hcfg, hsrc, fun h' hh' => Option.some.inj hh' ▸ hothers, fun _ hidle => ?_⟩
    rw [hidle] at hslot; cases hslot
  | none =>
    have hp := Phase.eq_idle_of_slot hslot
    cases hc : s.port with
    | none =>
      rw [step_of_idle_quiet hp hc] at ht
      cases ht
      exact ⟨rfl, rfl, nofun, nofun⟩
    | some c =>
      obtain ⟨hcfg, hsrc, hstart, hother⟩ := step_command_keeps hp hc ht
      exact ⟨hcfg, hsrc, nofun, fun c' _ hc' => Option.some.inj hc' ▸ ⟨hstart, hother⟩⟩

end Sys2Proof.Machine
end

section
/-! The encoder and the decoder undo each other (30_encoding R91, R92, R95, R100, R101, R105, R107). -/

namespace Sys2Proof

/-! ## Bytes and little-endian words -/

theorem byteAt_zero (b : Byte) : byteAt b 0 = b := BitVec.extractLsb'_eq_self

theorem byteAt_append_of_lt {n i : Nat} (b : Byte) (v : BitVec n) (hi : 8 * i + 8 ≤ n) :
    byteAt (b ++ v) i = byteAt v i :=
  BitVec.extractLsb'_append_eq_of_add_le hi

theorem byteAt_append_of_eq {n i : Nat} (b : Byte) (v : BitVec n) (hi : 8 * i = n) : byteAt (b ++ v) i = b := by
  subst hi
  exact BitVec.extractLsb'_append_eq_left

theorem byteAt_le16 (b0 b1 : Byte) : byteAt (le16 b0 b1) 0 = b0 ∧ byteAt (le16 b0 b1) 1 = b1 :=
  ⟨(byteAt_append_of_lt b1 b0 (by decide)).trans (byteAt_zero b0), byteAt_append_of_eq b1 b0 rfl⟩

theorem byteAt_le24 (b0 b1 b2 : Byte) :
    byteAt (le24 b0 b1 b2) 0 = b0 ∧ byteAt (le24 b0 b1 b2) 1 = b1 ∧ byteAt (le24 b0 b1 b2) 2 = b2 := by
  obtain ⟨h0, h1⟩ := byteAt_le16 b0 b1
  exact ⟨(byteAt_append_of_lt b2 (le16 b0 b1) (by decide)).trans h0,
    (byteAt_append_of_lt b2 (le16 b0 b1) (by decide)).trans h1, byteAt_append_of_eq b2 (le16 b0 b1) rfl⟩

theorem byteAt_le32 (b0 b1 b2 b3 : Byte) :
    byteAt (le32 b0 b1 b2 b3) 0 = b0 ∧ byteAt (le32 b0 b1 b2 b3) 1 = b1 ∧ byteAt (le32 b0 b1 b2 b3) 2 = b2 ∧
      byteAt (le32 b0 b1 b2 b3) 3 = b3 := by
  obtain ⟨h0, h1, h2⟩ := byteAt_le24 b0 b1 b2
  have hlow : ∀ i, 8 * i + 8 ≤ 24 → byteAt (le32 b0 b1 b2 b3) i = byteAt (le24 b0 b1 b2) i :=
    fun _ => byteAt_append_of_lt b3 (le24 b0 b1 b2)
  exact ⟨(hlow 0 (by decide)).trans h0, (hlow 1 (by decide)).trans h1, (hlow 2 (by decide)).trans h2,
    byteAt_append_of_eq b3 (le24 b0 b1 b2) rfl⟩

/-- A byte of a value, put before the bytes below it. -/
theorem byteAt_append_low {n : Nat} (v : BitVec n) (i : Nat) :
    byteAt v i ++ v.extractLsb' 0 (8 * i) = v.extractLsb' 0 (8 + 8 * i) :=
  BitVec.extractLsb'_append_extractLsb'_eq_extractLsb' (by omega)

theorem le16_low {n : Nat} (v : BitVec n) : le16 (byteAt v 0) (byteAt v 1) = v.extractLsb' 0 16 :=
  byteAt_append_low v 1

theorem le24_low {n : Nat} (v : BitVec n) :
    le24 (byteAt v 0) (byteAt v 1) (byteAt v 2) = v.extractLsb' 0 24 :=
  (congrArg (byteAt v 2 ++ ·) (le16_low v)).trans (byteAt_append_low v 2)

@[simp] theorem le16_byteAt (v : BitVec 16) : le16 (byteAt v 0) (byteAt v 1) = v :=
  (le16_low v).trans BitVec.extractLsb'_eq_self

@[simp] theorem le24_byteAt (v : BitVec 24) : le24 (byteAt v 0) (byteAt v 1) (byteAt v 2) = v :=
  (le24_low v).trans BitVec.extractLsb'_eq_self

@[simp] theorem le32_byteAt (v : BitVec 32) :
    le32 (byteAt v 0) (byteAt v 1) (byteAt v 2) (byteAt v 3) = v := calc
  _ = byteAt v 3 ++ v.extractLsb' 0 24 := congrArg (byteAt v 3 ++ ·) (le24_low v)
  _ = v.extractLsb' 0 32 := byteAt_append_low v 3
  _ = v := BitVec.extractLsb'_eq_self

/-! ## File headers and chunk headers -/

theorem decode_fileHdr_encode (p : Params) (magic : BitVec 16) (unused : BitVec 32) (fps : BitVec 16) :
    decode p (encode p (.filehdr magic unused fps)) = .ok (.filehdr magic unused fps) := by
  simp [encode, decode, decodeFileHdr]

theorem decode_encodeChunkHdr (p : Params) (tag : BitVec 16) (hd : ChunkHdr) :
    decode p (encodeChunkHdr tag hd) = decodeTag p tag hd := by
  simp [encodeChunkHdr, decode, decodeChunkHdr, chunkFields]

theorem encode_of_decodeFileHdr {p : Params} {bytes : List Byte} {i : Instr} (hd : decodeFileHdr bytes = .ok i) :
    encode p i = .fileHdr bytes := by
  unfold decodeFileHdr at hd
  split at hd
  · cases hd; simp [encode, byteAt_le16, byteAt_le32]
  · cases hd

theorem encodeChunkHdr_of_chunkFields {bytes : List Byte} {tag : BitVec 16} {hd : ChunkHdr}
    (hf : chunkFields bytes = some (tag, hd)) : encodeChunkHdr tag hd = .chunkHdr bytes := by
  unfold chunkFields at hf
  split at hf
  · cases hf; simp [encodeChunkHdr, byteAt_le16, byteAt_le24]
  · cases hf

/-! ## Type tags -/

/-- A tag selects the chunk that carries it. -/
theorem encode_of_decodeTag {p : Params} {tag : BitVec 16} {hd : ChunkHdr} {i : Instr}
    (ht : decodeTag p tag hd = .ok i) : encode p i = encodeChunkHdr tag hd := by
  unfold decodeTag at ht
  split_ifs at ht <;> cases ht <;> simp only [encode, *]

theorem Params.wf_tags {p : Params} (hp : p.wf = true) : p.tags.Nodup := by
  simp only [Params.wf, Bool.and_eq_true, decide_eq_true_eq] at hp
  obtain ⟨⟨-, htags⟩, -⟩ := hp
  exact htags

/-- The tags are pairwise distinct, so that each selects its chunk (30_encoding R95). -/
theorem decodeTag_tags {p : Params} (hp : p.tags.Nodup) (hd : ChunkHdr) :
    decodeTag p p.tagInfo hd = .ok (.info hd) ∧ decodeTag p p.tagCodebook hd = .ok (.codebook hd) ∧
      decodeTag p p.tagVideo hd = .ok (.video hd) ∧ decodeTag p p.tagHang hd = .ok (.hang hd) ∧
      decodeTag p p.tagAudioMono hd = .ok (.audioMono hd) ∧ decodeTag p p.tagAudioStereo hd = .ok (.audioStereo hd) ∧
      decodeTag p p.tagPacket hd = .ok (.packet hd) := by
  simp only [Params.tags, List.nodup_cons, List.mem_cons, List.not_mem_nil, not_or, or_false] at hp
  simp [decodeTag, hp, eq_comm]

/-! ## Opcodes -/

theorem bitVec2_cases : ∀ code : BitVec 2, code = 0 ∨ code = 1 ∨ code = 2 ∨ code = 3 := by decide

theorem encode_decodeQop8 (p : Params) (code : BitVec 2) : encode p (decodeQop8 code) = .qop8 code := by
  rcases bitVec2_cases code with rfl | rfl | rfl | rfl <;> rfl

theorem encode_decodeQop4 (p : Params) (code : BitVec 2) : encode p (decodeQop4 code) = .qop4 code := by
  rcases bitVec2_cases code with rfl | rfl | rfl | rfl <;> rfl

/-! ## Round trips -/

/-- Settles O1: the bytes of a header join to its fields again and its tag selects its chunk; opcodes, audio bytes and
commands decode by their codes. -/
theorem decodeEncodeRoundTrip : Obligations.DecodeEncodeRoundTrip := by
  unfold Obligations.DecodeEncodeRoundTrip
  intro p i hp _
  have htags := decodeTag_tags (Params.wf_tags hp)
  cases i with
  | filehdr magic unused fps => exact decode_fileHdr_encode p magic unused fps
  | info hd | codebook hd | video hd | hang hd | audioMono hd | audioStereo hd | packet hd =>
    simp only [encode, decode_encodeChunkHdr, htags hd]
  | skip8 | mot8 | vq8 | sub8 | skip4 | mot4 | vq4 | quad2 => rfl
  | delta d => rfl
  | start srcId x y w h flags now | tick handle now | stop handle | getframe handle | resume handle => rfl

/-- Settles O2, by the place of the object: every byte of a header is a byte of a decoded field, and every code is the
code of its opcode. -/
theorem encodeDecodeRoundTrip : Obligations.EncodeDecodeRoundTrip := by
  unfold Obligations.EncodeDecodeRoundTrip
  intro p e i hstream hd
  cases e with
  | fileHdr bytes => exact encode_of_decodeFileHdr hd
  | chunkHdr bytes =>
    simp only [decode, decodeChunkHdr] at hd
    split at hd
    next hf => exact (encode_of_decodeTag hd).trans (encodeChunkHdr_of_chunkFields hf)
    next => cases hd
  | qop8 code => cases hd; exact encode_decodeQop8 p code
  | qop4 code => cases hd; exact encode_decodeQop4 p code
  | delta d => cases hd; rfl
  | hostCmd c => exact absurd rfl (hstream c)

/-- Settles O3, word by word. -/
theorem writtenWordsDecode : Obligations.WrittenWordsDecode := by
  unfold Obligations.WrittenWordsDecode
  refine ⟨?fileHdr, ?codebook, ?packet, ?vq8, ?quad2, ?delta, ?resume⟩
  all_goals decide

end Sys2Proof
end

section
/-! The objects inside a payload: the opcodes of a word (30_encoding R99) and the audio bytes (R105). -/

namespace Sys2Proof.Machine

/-! ## The opcodes of a cached word (43_quadtree_video R184) -/

/-- `x` with `w` in the cache, its first `k` opcodes taken. -/
def Session.cached (x : Session) (w : BitVec 16) (k : Nat) : Session :=
  { x with opw := w <<< (2 * k), opn := BitVec.ofNat 4 (8 - k) }

/-- The top pair of a word shifted by `k` pairs. -/
theorem extractLsb'_shiftLeft_pairs (w : BitVec 16) {k : Nat} (hk : k < 8) :
    (w <<< (2 * k)).extractLsb' 14 2 = w.extractLsb' (14 - 2 * k) 2 := by
  ext i hi
  have hbit : 14 + i - 2 * k = 14 - 2 * k + i := by omega
  have hinside : 14 + i < 16 ∧ ¬ 14 + i < 2 * k := by omega
  simp only [BitVec.getElem_extractLsb', BitVec.getLsbD_shiftLeft, hbit, hinside]
  simp

theorem cached_eight (x : Session) (w : BitVec 16) : x.cached w 8 = { x with opw := 0, opn := 0 } := by
  simp [Session.cached, BitVec.shiftLeft_eq_zero]

theorem nextOpcode_cached (x : Session) (w : BitVec 16) {k : Nat} (hk : k < 8) :
    nextOpcode (x.cached w k) = .ok (w.extractLsb' (14 - 2 * k) 2, x.cached w (k + 1)) := by
  have hopn : (x.cached w k).opn ≠ 0 := by simp only [Session.cached]; bv_omega
  have hdec : BitVec.ofNat 4 (8 - k) - 1 = BitVec.ofNat 4 (8 - (k + 1)) := by bv_omega
  rw [nextOpcode, if_neg hopn]
  simp only [takeOpcode, Session.cached, extractLsb'_shiftLeft_pairs w hk, hdec, Nat.mul_succ, BitVec.shiftLeft_add]

theorem nextOpcodes_cached (x : Session) (w : BitVec 16) (n : Nat) :
    ∀ k, k + n ≤ 8 → nextOpcodes n (x.cached w k) =
      .ok ((List.range' k n).map fun i => w.extractLsb' (14 - 2 * i) 2, x.cached w (k + n)) := by
  induction n with
  | zero => intro k _; rfl
  | succ n ih =>
    intro k hk
    rw [nextOpcodes, nextOpcode_cached x w (by omega), andThen_ok, ih (k + 1) (by omega), andThen_ok, List.range'_succ,
      List.map_cons, Nat.add_right_comm, Nat.add_assoc]

/-- With an empty cache an opcode is taken from the little-endian word at PPTR (30_encoding R99). -/
theorem nextOpcode_fetches {x : Session} {b0 b1 : Byte} (hopn : x.opn = 0) (hlen : x.pptr.toNat + 2 ≤ x.cLen.toNat)
    (h0 : x.payload[x.pptr.toNat]? = some b0) (h1 : x.payload[x.pptr.toNat + 1]? = some b1) :
    nextOpcode x =
      nextOpcode (Session.cached { x with pptr := BitVec.ofNat 17 (x.pptr.toNat + 2) } (le16 b0 b1) 0) := by
  have hfull : ¬ x.cLen.toNat < x.pptr.toNat + 2 := by omega
  simp [nextOpcode, hopn, hfull, h0, h1, Session.cached]

/-- Settles O20: the word at PPTR is cached, and its eight pairs are taken from the top down. -/
theorem eightOpcodesOfAWord : Obligations.EightOpcodesOfAWord := by
  unfold Obligations.EightOpcodesOfAWord
  intro x b0 b1 hopn _ hlen h0 h1
  rw [nextOpcodes, nextOpcode_fetches hopn hlen h0 h1, ← nextOpcodes, nextOpcodes_cached _ _ 8 0 (Nat.le_refl 8),
    cached_eight]
  rfl

/-! ## Audio bytes -/

/-- The ROM SQR is the signed square of the low seven bits (45_audio R260). -/
theorem sqr_eq (d : Byte) :
    sqr d = if d.toNat < 128 then ((d.toNat % 128 * (d.toNat % 128) : Nat) : Int)
      else -((d.toNat % 128 * (d.toNat % 128) : Nat) : Int) := by
  unfold sqr
  split_ifs with hd
  · rw [Nat.mod_eq_of_lt hd, Int.natCast_mul]
  · have hmod : ((d.toNat % 128 : Nat) : Int) = (d.toNat : Int) - 128 := by omega
    rw [Int.natCast_mul, hmod]

/-- A step of an accumulator is the addition of integers, wrapped (45_audio R263). -/
theorem stepAcc_eq_ofInt (acc : BitVec 16) (d : Byte) : stepAcc acc d = BitVec.ofInt 16 (acc.toInt + sqr d) := by
  rw [stepAcc, BitVec.ofInt_add, BitVec.ofInt_toInt]

theorem exec_delta {s : State} {h : Nat} {stereo : Bool} {x : Session} (hp : s.phase = .audio h stereo)
    (hx : s.slots[h]? = some x) (d : Byte) :
    exec (.delta d) s = .next { s with slots := s.slots.set h (deltaStep stereo d x), phase := .audio h stereo } := by
  simp [exec, execDelta, hp, hx, State.setSlot]

/-- Settles O35, by the channel of the byte: mono, left, right. -/
theorem deltaStepsTheAccumulator : Obligations.DeltaStepsTheAccumulator := by
  unfold Obligations.DeltaStepsTheAccumulator
  intro s h stereo x d square acc acc' hp hx hacc hsquare hacc'
  have hstep : stepAcc acc d = acc' := by rw [stepAcc_eq_ofInt, sqr_eq, ← hsquare, hacc']
  rw [exec_delta hp hx]
  rcases deltaStep_cases stereo d x with ⟨rfl, hd⟩ | ⟨rfl, heven, hd⟩ | ⟨rfl, hodd, hd⟩ <;> rw [hd]
  case inl =>
    obtain rfl : acc = x.accL := by simpa using hacc
    simp [deltaMono, hstep]
  case inr.inl =>
    obtain rfl : acc = x.accL := by simpa [heven] using hacc
    simp [deltaLeft, hstep, heven]
  case inr.inr =>
    have hone : x.audioPos % 2 = 1 := by omega
    obtain rfl : acc = x.accR := by simpa [hone] using hacc
    simp [deltaRight, hstep, hone]

end Sys2Proof.Machine
end

section
/-! The chunk reader (40_chunk_reader): the header parse of START, the errors of the chunk fetch, and the chunks INFO, HANG
and PACKET. -/

namespace Sys2Proof.Machine

/-! ## The end of a chunk and its traps, in the terms of the statements -/

/-- The fetch of a chunk leaves the session the statements call `loaded` (40_chunk_reader R130, R136). -/
theorem loadPayload_latched (src : Source) (tag : BitVec 16) (hd : ChunkHdr) (x : Session) :
    loadPayload src (latched tag hd x) = loaded src tag hd x := rfl

@[simp] theorem loaded_payload_length (src : Source) (tag : BitVec 16) (hd : ChunkHdr) (x : Session) :
    (loaded src tag hd x).payload.length = hd.len.toNat := srcRead_length ..

/-- A chunk that raises no error is done: it advances by its declared length (40_chunk_reader R132), and its registers are
those of a free session (10_state R25). -/
theorem endChunk_eq_chunkDone (s : State) (h : Nat) {y : Session} {len : BitVec 24} (hlen : y.cLen = len) :
    ∃ (u : Session) (k : Nat), endChunk s h (.ok y) = .next (chunkDone s h len u k y) :=
  ⟨Config.unspecifiedSession s.freeCount, s.freeCount + 1, by rw [← hlen]; rfl⟩

/-- An error while a chunk is fetched traps (60_exceptions R290). -/
theorem traps_raiseFatal {s : State} {h : Nat} (hp : s.phase = .fetch h) (code : ErrCode) (y : Session) :
    Traps s h code y (.next (raiseFatal s h code y)) :=
  ⟨_, _, by rw [raiseFatal_eq_trapped, trapAnswer_of_ne_header (by simp [hp])]; rfl⟩

/-- Of what the fetch latched, a trap keeps the qualifier of the request only: the chunk registers have no value outside the
chunk (10_state R25). -/
theorem raiseFatal_latched (s : State) (h : Nat) (code : ErrCode) (tag : BitVec 16) (hd : ChunkHdr) (x : Session) :
    raiseFatal s h code (latched tag hd x) = raiseFatal s h code { x with inmem := decide (x.rawn ≠ 0) } := rfl

/-! ## The header parse (40_chunk_reader R137) -/

theorem parseHeader_ok {x : Session} (hlen : 16 ≤ x.srcLen.toNat) (p : Params) (fps : BitVec 16) :
    (openHeader x).andThen (loadHeader p p.magic fps) =
      .ok { x with offset := 8, fps := fpsOf fps, inmem := decide (x.rawn ≠ 0) } := by
  rcases openHeader_cases x with ⟨hshort, -⟩ | ⟨-, ho⟩
  · omega
  · rw [ho, andThen_ok]
    rcases loadHeader_cases p p.magic fps { x with offset := 0, inmem := decide (x.rawn ≠ 0) } with ⟨hm, -⟩ | ⟨-, hl⟩
    · exact absurd rfl hm
    · exact hl

theorem parseHeader_invalidMagic {x : Session} (hlen : 16 ≤ x.srcLen.toNat) {p : Params} {magic : BitVec 16}
    (hmagic : magic ≠ p.magic) (fps : BitVec 16) :
    (openHeader x).andThen (loadHeader p magic fps) =
      .raised .invalidMagic { x with offset := 0, inmem := decide (x.rawn ≠ 0) } := by
  rcases openHeader_cases x with ⟨hshort, -⟩ | ⟨-, ho⟩
  · omega
  · rw [ho, andThen_ok]
    rcases loadHeader_cases p magic fps { x with offset := 0, inmem := decide (x.rawn ≠ 0) } with ⟨-, hl⟩ | ⟨hm, -⟩
    · exact hl
    · exact absurd hm hmagic

/-- An error of the header parse of START ends it with the handle (60_exceptions R290). -/
theorem raiseFatal_header {s : State} {h : Nat} (hp : s.phase = .header h false) (code : ErrCode) (y : Session) :
    raiseFatal s h code y =
      { trapped s h code (Config.unspecifiedSession s.freeCount) (s.freeCount + 1) y with
        result := some (.handle h) } := by
  rw [raiseFatal_eq_trapped, hp, trapAnswer]

/-- Below 16 bytes of source the header is not read (40_chunk_reader R137). -/
theorem step_header_truncated {s : State} {h : Nat} {restart : Bool} {x : Session} {src : Source} (hq : s.port = none)
    (hx : s.slots[h]? = some x) (hs : sourceOf s x = some src) (hp : s.phase = .header h restart)
    (hlen : x.srcLen.toNat < 16) : step s = .next (raiseFatal s h .truncated { x with offset := 0 }) := by
  have hf : fetch s = fetchHeader s h src x := fetch_slot hq hx hs (by rw [fetchPlace, hp])
  rcases openHeader_cases x with ⟨-, ho⟩ | ⟨hlong, -⟩
  · exact step_of_done (by rw [hf, fetchHeader, ho])
  · omega

/-- Settles O6: both checks of the parse succeed, and START returns the handle. -/
theorem headerParseLoads : Obligations.HeaderParseLoads := by
  unfold Obligations.HeaderParseLoads
  intro s h x unused fps hp hx hlen
  simp only [exec, execFilehdr, hp, hx, parseHeader_ok hlen]
  rfl

/-- Settles O7: the fetch finds fewer than 16 bytes, or FILEHDR another magic. -/
theorem headerParseErrors : Obligations.HeaderParseErrors := by
  unfold Obligations.HeaderParseErrors
  intro s h x magic unused fps hp hx
  refine ⟨fun src hlen hq hs => ?truncated, fun hlen hmagic => ?invalidMagic⟩
  case truncated =>
    exact ⟨_, _, by rw [step_header_truncated hq hx hs hp hlen, raiseFatal_header hp]⟩
  case invalidMagic =>
    have he : exec (.filehdr magic unused fps) s =
        .next (raiseFatal s h .invalidMagic { x with offset := 0, inmem := decide (x.rawn ≠ 0) }) := by
      simp only [exec, execFilehdr, hp, hx, parseHeader_invalidMagic hlen hmagic]
    exact ⟨_, _, by rw [he, raiseFatal_header hp]⟩

/-! ## The chunk fetch (40_chunk_reader R130, R131) -/

/-- The rule of a chunk that is ready works on its loaded session. -/
theorem ChunkReady.atChunk_eq {s : State} {h : Nat} {x : Session} {src : Source} {hd : ChunkHdr}
    (hr : ChunkReady s h x src hd) (tag : BitVec 16) (k : Nat → Session → Host.Outcome State Fault Refusal) :
    atChunk s tag hd k = k h (loaded src tag hd x) := by
  have hfits : 8 + hd.len.toNat ≤ x.remaining := by have := hr.fits; rw [Session.remaining]; omega
  rw [Machine.atChunk_eq tag hd k hr.phase hr.slot hr.len hfits hr.source, loadPayload_latched]

/-- A check of the fetch that fails traps before the chunk's own rule. -/
theorem atChunk_raised {s : State} {h : Nat} {x y : Session} {tag : BitVec 16} {hd : ChunkHdr} {e : ErrCode}
    (hp : s.phase = .fetch h) (hx : s.slots[h]? = some x) (ho : openChunk tag hd x = .raised e y)
    (k : Nat → Session → Host.Outcome State Fault Refusal) : atChunk s tag hd k = .next (raiseFatal s h e y) := by
  simp only [atChunk, hp, hx, ho]

theorem openChunk_oversize {hd : ChunkHdr} {x : Session} (hroom : x.offset.toNat + 8 ≤ x.srcLen.toNat)
    (hlen : 65536 < hd.len.toNat) (tag : BitVec 16) : openChunk tag hd x = .raised .oversize (latched tag hd x) := by
  have hrem : 8 ≤ x.remaining := by rw [Session.remaining]; omega
  rcases openChunk_cases tag hd x with ⟨hshort, -⟩ | ⟨-, -, ho⟩ | ⟨-, hlegal, -, -⟩ | ⟨hlegal, -, -⟩
  · omega
  · exact ho
  · omega
  · omega

theorem openChunk_truncated {hd : ChunkHdr} {x : Session} (hroom : x.offset.toNat + 8 ≤ x.srcLen.toNat)
    (hlen : hd.len.toNat ≤ 65536) (hcut : x.srcLen.toNat < x.offset.toNat + 8 + hd.len.toNat) (tag : BitVec 16) :
    openChunk tag hd x = .raised .truncated (latched tag hd x) := by
  have hrem : 8 ≤ x.remaining ∧ x.remaining < 8 + hd.len.toNat := by rw [Session.remaining]; omega
  rcases openChunk_cases tag hd x with ⟨hshort, -⟩ | ⟨-, hover, -⟩ | ⟨-, -, -, ho⟩ | ⟨-, hfits, -⟩
  · omega
  · omega
  · exact ho
  · omega

theorem decode_chunkHdr {bytes : List Byte} {tag : BitVec 16} {hd : ChunkHdr}
    (hf : chunkFields bytes = some (tag, hd)) (p : Params) : decode p (.chunkHdr bytes) = decodeTag p tag hd := by
  simp only [decode, decodeChunkHdr, hf]

theorem decodeTag_unknown {p : Params} {tag : BitVec 16} (htag : tag ∉ p.tags) (hd : ChunkHdr) :
    decodeTag p tag hd = .error (.unknownTag tag) := by
  simp only [Params.tags, List.mem_cons, List.not_mem_nil, or_false, not_or] at htag
  simp [decodeTag, htag]

/-- The meaning of every chunk begins with the fetch, under the chunk's own tag. -/
theorem exec_of_decodeTag {s : State} {tag : BitVec 16} {hd : ChunkHdr} {i : Instr}
    (ht : decodeTag s.cfg tag hd = .ok i) : ∃ k, exec i s = atChunk s tag hd k := by
  unfold decodeTag at ht
  split_ifs at ht <;> cases ht
  all_goals
    subst tag
    simp only [exec, execInfo, execCodebook, execVideo, execHang, execAudioMono, execAudioStereo, execPacket]
    exact ⟨_, rfl⟩

section AtOffset

variable {s : State} {h : Nat} {x : Session} {src : Source} {tag : BitVec 16} {hd : ChunkHdr} (hq : s.port = none)
  (hx : s.slots[h]? = some x) (hs : sourceOf s x = some src) (hp : s.phase = .fetch h)

include hq hx hs hp

theorem step_fetch_truncated (hshort : x.srcLen.toNat < x.offset.toNat + 8) :
    step s = .next (raiseFatal s h .truncated x) := by
  have hf : fetch s = fetchChunk s h src x := fetch_slot hq hx hs (by rw [fetchPlace, hp])
  have hrem : x.remaining < Config.chunkHdr := by rw [Session.remaining, Config.chunkHdr]; omega
  exact step_of_done (by rw [hf, fetchChunk, if_pos hrem])

variable (hroom : x.offset.toNat + 8 ≤ x.srcLen.toNat)
  (hfields : chunkFields (srcRead src x.offset.toNat 8) = some (tag, hd))

include hroom hfields

theorem step_unknownTag (htag : decodeTag s.cfg tag hd = .error (.unknownTag tag)) : step s = unknownChunk tag hd s := by
  have hf : fetch s = fetchChunk s h src x := fetch_slot hq hx hs (by rw [fetchPlace, hp])
  have hrem : ¬ x.remaining < Config.chunkHdr := by rw [Session.remaining, Config.chunkHdr]; omega
  rw [fetchChunk, if_neg hrem] at hf
  rw [step_of_illegal hf ((decode_chunkHdr hfields _).trans htag)]
  simp only [illegal, hfields]

/-- Whatever the tag, a step at a chunk header is the fetch of the chunk, then a rule of its own (40_chunk_reader R131). -/
theorem step_eq_atChunk : ∃ k, step s = atChunk s tag hd k := by
  rcases decodeTag_cases s.cfg tag hd with htag | ⟨i, -, htag⟩
  · exact ⟨_, step_unknownTag hq hx hs hp hroom hfields htag⟩
  · rw [step_chunkHdr hq hx hs hp hroom ((decode_chunkHdr hfields _).trans htag)]
    exact exec_of_decodeTag htag

/-- A check of the fetch that fails at a chunk header traps, whatever the tag; what was latched is lost but for the
qualifier of the request. -/
theorem step_fetch_traps {e : ErrCode} (ho : openChunk tag hd x = .raised e (latched tag hd x)) :
    Traps s h e { x with inmem := decide (x.rawn ≠ 0) } (step s) := by
  obtain ⟨k, hk⟩ := step_eq_atChunk hq hx hs hp hroom hfields
  rw [hk, atChunk_raised hp hx ho, raiseFatal_latched]
  exact traps_raiseFatal hp e _

end AtOffset

/-- Settles O9: the check of the 8 bytes is the fetch's own; the two others are those of `openChunk`, which every chunk
begins with. -/
theorem chunkFetchErrors : Obligations.ChunkFetchErrors := by
  unfold Obligations.ChunkFetchErrors
  intro s h x src hp hq hx hs
  refine ⟨fun hshort => ?_, fun tag hd hroom hfields => ⟨fun hover => ?_, fun hlen hcut => ?_⟩⟩
  · rw [step_fetch_truncated hq hx hs hp hshort]
    exact traps_raiseFatal hp .truncated x
  · exact step_fetch_traps hq hx hs hp hroom hfields (openChunk_oversize hroom hover tag)
  · exact step_fetch_traps hq hx hs hp hroom hfields (openChunk_truncated hroom hlen hcut tag)

/-- Settles O4: the whole fetch succeeds, and the rule of an unknown tag is to raise BadOpcode. -/
theorem unknownTagIsBadOpcode : Obligations.UnknownTagIsBadOpcode := by
  unfold Obligations.UnknownTagIsBadOpcode
  intro s h x src tag hd hr hq hfields htag
  have hroom : x.offset.toNat + 8 ≤ x.srcLen.toNat := le_trans (Nat.le_add_right _ _) hr.fits
  rw [step_unknownTag hq hr.slot hr.source hr.phase hroom hfields (decodeTag_unknown htag hd), unknownChunk, hr.atChunk_eq]
  exact traps_raiseFatal hr.phase .badOpcode _

/-! ## HANG and PACKET (40_chunk_reader R134, R135) -/

/-- Settles O10: the rule of HANG is the end of the chunk. -/
theorem hangOnlyAdvances : Obligations.HangOnlyAdvances := by
  unfold Obligations.HangOnlyAdvances
  intro s h x src hd hr
  rw [exec, execHang, hr.atChunk_eq]
  exact endChunk_eq_chunkDone s h rfl

/-- Settles O11: the rule of PACKET writes RAWN after the fetch counted it down. -/
theorem packetSetsRawn : Obligations.PacketSetsRawn := by
  unfold Obligations.PacketSetsRawn
  intro s h x src hd hr
  rw [exec, execPacket, hr.atChunk_eq]
  exact endChunk_eq_chunkDone s h rfl

/-! ## INFO (40_chunk_reader R133) -/

/-- The size is taken, AT goes stale and FIRST is set on a change, TARGET is recomputed. -/
theorem declareSize_eq (w h : BitVec 16) (x : Session) :
    declareSize w h x =
      { x with
        w := w
        h := h
        atValid := if w = x.w ∧ h = x.h then x.atValid else false
        first := if w = x.w ∧ h = x.h then x.first else true
        target := targetOf x x.nowL } := by
  by_cases hsame : w = x.w ∧ h = x.h
  · obtain ⟨rfl, rfl⟩ := hsame
    simp [declareSize]
  · have hchange : w ≠ x.w ∨ h ≠ x.h := not_and_or.mp hsame
    simp only [declareSize, if_pos hchange, if_neg hsame]
    rfl

theorem doInfo_truncated {x : Session} (hlen : x.cLen.toNat < 4) (p : Params) : doInfo p x = .raised .truncated x :=
  if_pos hlen

/-- With its four bytes there, INFO checks the size they declare, then takes it. -/
theorem doInfo_eq {x : Session} {b0 b1 b2 b3 : Byte} {rest : List Byte} (hlen : x.payload.length = x.cLen.toNat)
    (hpay : x.payload = b0 :: b1 :: b2 :: b3 :: rest) (p : Params) :
    doInfo p x =
      if p.maxW < (le16 b0 b1).toNat ∨ p.maxH < (le16 b2 b3).toNat then .raised .indexOutOfRange x
      else if p.cfgHalf = true ∨ ((le16 b2 b3).toNat ≠ 0 ∧ (le16 b0 b1).toNat = 4 * (le16 b2 b3).toNat) then
        .raised .modeUnsupported x
      else .ok (declareSize (le16 b0 b1) (le16 b2 b3) x) := by
  have hfour : ¬ x.cLen.toNat < 4 := by rw [← hlen, hpay]; simp
  simp only [doInfo, if_neg hfour, hpay]

theorem ChunkReady.exec_info {s : State} {h : Nat} {x : Session} {src : Source} {hd : ChunkHdr}
    (hr : ChunkReady s h x src hd) :
    exec (.info hd) s = endChunk s h (doInfo s.cfg (loaded src s.cfg.tagInfo hd x)) := by
  rw [exec, execInfo, hr.atChunk_eq]

/-- Settles O12: both checks of the size succeed, and `declareSize` writes what R133 says. -/
theorem infoDeclaresSize : Obligations.InfoDeclaresSize := by
  unfold Obligations.InfoDeclaresSize
  intro s h x y src hd b0 b1 b2 b3 rest w hh hr hy hpay hw hhh hmaxW hmaxH hhalf hratio
  subst hy hw hhh
  have hinfo : doInfo s.cfg (loaded src s.cfg.tagInfo hd x) =
      .ok (declareSize (b1 ++ b0) (b3 ++ b2) (loaded src s.cfg.tagInfo hd x)) := by
    rw [doInfo_eq (loaded_payload_length ..) hpay, if_neg (by simp only [le16]; omega),
      if_neg (by simpa [le16, hhalf] using hratio)]
    rfl
  rw [hr.exec_info, hinfo, declareSize_eq]
  exact endChunk_eq_chunkDone s h rfl

/-- Settles O13: the checks of `doInfo`, in their order. -/
theorem infoErrors : Obligations.InfoErrors := by
  unfold Obligations.InfoErrors
  intro s h x y src hd hr hy
  subst hy
  have htraps : ∀ e, doInfo s.cfg (loaded src s.cfg.tagInfo hd x) = .raised e (loaded src s.cfg.tagInfo hd x) →
      Traps s h e (loaded src s.cfg.tagInfo hd x) (exec (.info hd) s) := fun e he => by
    rw [hr.exec_info, he]
    exact traps_raiseFatal hr.phase e _
  refine ⟨fun hlen => htraps _ (doInfo_truncated hlen _), fun b0 b1 b2 b3 rest w hh hpay hw hhh => ?_⟩
  subst hw hhh
  have hinfo := doInfo_eq (loaded_payload_length ..) hpay s.cfg
  refine ⟨fun hrange => htraps _ ?_, fun hmaxW hmaxH hmode => htraps _ ?_⟩
  · exact hinfo.trans (if_pos hrange)
  · rw [hinfo, if_neg (by simp only [le16]; omega)]
    exact if_pos hmode

end Sys2Proof.Machine
end

section
/-! The reference conversions (41_color_tables R153, R154, R155) pack clamped components, so that each is read back as a
bit field of the pixel. -/

namespace Sys2Proof.Machine

/-! ## The bounds of a component -/

theorem clamp_le (v lo hi : Int) : clamp v lo hi ≤ hi := min_le_right _ hi

/-- The clamp bounds a component, so that it fits the field of the pixel it is packed into. -/
theorem component_le (sum : Int) (k hi : Nat) : component sum k hi ≤ hi :=
  Int.toNat_le.mpr (clamp_le _ 0 hi)

/-! ## A bit field of a packed number -/

/-- A field that lies inside the word is a digit of the packed number. -/
theorem toNat_extractLsb'_ofNat {w start len : Nat} (hinside : start + len ≤ w) (n : Nat) :
    ((BitVec.ofNat w n).extractLsb' start len).toNat = n / 2 ^ start % 2 ^ len := by
  obtain ⟨above, rfl⟩ := Nat.exists_eq_add_of_le hinside
  rw [BitVec.extractLsb'_toNat, BitVec.toNat_ofNat, Nat.shiftRight_eq_div_pow, Nat.add_assoc, Nat.pow_add,
    Nat.mod_mul_right_div_self, Nat.pow_add, Nat.mod_mul_right_mod]

/-! ## The two conversions -/

/-- CONV2 packs 5 bits of red over 6 bits of green over 5 bits of blue (41_color_tables R153). -/
theorem fields_rgb565 {r g b : Nat} (hr : r ≤ 31) (hg : g ≤ 63) (hb : b ≤ 31) :
    ((BitVec.ofNat 16 (2048 * r + 32 * g + b)).extractLsb' 11 5).toNat = r ∧
      ((BitVec.ofNat 16 (2048 * r + 32 * g + b)).extractLsb' 5 6).toNat = g ∧
      ((BitVec.ofNat 16 (2048 * r + 32 * g + b)).extractLsb' 0 5).toNat = b := by
  simp (disch := decide) only [toNat_extractLsb'_ofNat]
  omega

/-- CONV4 packs red, green, blue and alpha, a byte each, from the low byte up (41_color_tables R154). -/
theorem fields_rgba8888 {r g b a : Nat} (hr : r ≤ 255) (hg : g ≤ 255) (hb : b ≤ 255) (ha : a ≤ 255) :
    ((BitVec.ofNat 32 (r + 256 * g + 65536 * b + 16777216 * a)).extractLsb' 0 8).toNat = r ∧
      ((BitVec.ofNat 32 (r + 256 * g + 65536 * b + 16777216 * a)).extractLsb' 8 8).toNat = g ∧
      ((BitVec.ofNat 32 (r + 256 * g + 65536 * b + 16777216 * a)).extractLsb' 16 8).toNat = b ∧
      ((BitVec.ofNat 32 (r + 256 * g + 65536 * b + 16777216 * a)).extractLsb' 24 8).toNat = a := by
  simp (disch := decide) only [toNat_extractLsb'_ofNat]
  omega

/-- Settles O49: the clamp keeps every component within its field, and the fields do not overlap. -/
theorem referenceColoursPack : Obligations.ReferenceColoursPack := by
  unfold Obligations.ReferenceColoursPack
  intro y u v
  obtain ⟨hred2, hgreen2, hblue2⟩ := fields_rgb565 (component_le (yyTab y + vrTab v) 9 31)
    (component_le (yyTab y + ugTab u + vgTab v) 8 63) (component_le (yyTab y + ubTab u) 9 31)
  obtain ⟨hred4, hgreen4, hblue4, halpha⟩ := fields_rgba8888 (component_le (yyTab y + vrTab v) 6 255)
    (component_le (yyTab y + ugTab u + vgTab v) 6 255) (component_le (yyTab y + ubTab u) 6 255) (le_refl 255)
  exact ⟨hred2, hgreen2, hblue2, hred4, hgreen4, hblue4, BitVec.eq_of_toNat_eq halpha⟩

end Sys2Proof.Machine
end

section
/-! CODEBOOK (42_codebook): the tiles built from the payload in closed form, the errors, and what the dictionaries
depend on. -/

namespace Sys2Proof.Machine

/-! ## Records of a payload -/

theorem getD_drop (l : List Byte) (m i : Nat) : (l.drop m).getD i 0 = l.getD (m + i) 0 := by
  simp [List.getD_eq_getElem?_getD]

theorem getD_map_range {n k : Nat} (f : Nat → Tile) (hk : k < n) : ((List.range n).map f).getD k [] = f k := by
  simp [List.getD_eq_getElem?_getD, hk]

/-- A tile has no pixel beyond its edge. -/
theorem Tile.make_congr {n : Nat} {f g : Nat → Nat → Pixel} (hfg : ∀ r < n, ∀ c < n, f r c = g r c) :
    Tile.make n f = Tile.make n g :=
  List.map_congr_left fun r hr =>
    List.map_congr_left fun c hc => hfg r (List.mem_range.mp hr) c (List.mem_range.mp hc)

/-- The 2x2 tile of record `k` (30_encoding R98, 42_codebook R162). -/
def recordTile (sel : ConvSel) (d : Depth) (l : List Byte) (k : Nat) : Tile :=
  Tile.make 2 fun r c => conv sel d (l.getD (6 * k + 2 * r + c) 0) (l.getD (6 * k + 4) 0) (l.getD (6 * k + 5) 0)

/-- The 2x2 tile that byte `i` of the seed records names (42_codebook R163). -/
def seedQuadrant (cb2 : List Tile) (l : List Byte) (i : Nat) : Tile := cb2.getD (l.getD i 0).toNat []

/-- The 4x4 tile of the seed record `k` (30_encoding R98, 42_codebook R163). -/
def seedTile (cb2 : List Tile) (l : List Byte) (k : Nat) : Tile :=
  tile4 (seedQuadrant cb2 l (4 * k)) (seedQuadrant cb2 l (4 * k + 1)) (seedQuadrant cb2 l (4 * k + 2))
    (seedQuadrant cb2 l (4 * k + 3))

/-- The 2x2 tiles of the first `n` records. -/
def recordTiles (sel : ConvSel) (d : Depth) (n : Nat) (l : List Byte) : List Tile :=
  (List.range n).map (recordTile sel d l)

/-- The 4x4 tiles of the first `n` seed records. -/
def seedTiles (cb2 : List Tile) (n : Nat) (l : List Byte) : List Tile := (List.range n).map (seedTile cb2 l)

@[simp] theorem recordTiles_length (sel : ConvSel) (d : Depth) (n : Nat) (l : List Byte) :
    (recordTiles sel d n l).length = n := by simp [recordTiles]

@[simp] theorem seedTiles_length (cb2 : List Tile) (n : Nat) (l : List Byte) : (seedTiles cb2 n l).length = n := by
  simp [seedTiles]

theorem map_tile8_seedTiles_length (cb2 : List Tile) (n : Nat) (l : List Byte) :
    ((seedTiles cb2 n l).map tile8).length = n := by simp

theorem recordTile_drop (sel : ConvSel) (d : Depth) (l : List Byte) :
    recordTile sel d (l.drop 6) = recordTile sel d l ∘ Nat.succ := funext fun k => by
  have hshift : ∀ i, 6 + (6 * k + i) = 6 * (k + 1) + i := by omega
  simp only [Function.comp_apply, recordTile, getD_drop, Nat.add_assoc, hshift]

theorem seedTile_drop (cb2 : List Tile) (l : List Byte) : seedTile cb2 (l.drop 4) = seedTile cb2 l ∘ Nat.succ :=
  funext fun k => by
    have hshift : 4 + 4 * k = 4 * (k + 1) := by omega
    simp only [Function.comp_apply, seedTile, seedQuadrant, getD_drop, ← Nat.add_assoc, hshift]

/-- The pixels of a 2x2 tile are the luminances of its record, converted with its two chromas (42_codebook R162). -/
theorem px_recordTiles {sel : ConvSel} {d : Depth} {n k r c : Nat} {l : List Byte} (hk : k < n) (hr : r < 2)
    (hc : c < 2) :
    ((recordTiles sel d n l).getD k []).px r c =
      conv sel d (l.getD (6 * k + 2 * r + c) 0) (l.getD (6 * k + 4) 0) (l.getD (6 * k + 5) 0) := by
  rw [recordTiles, getD_map_range _ hk, recordTile, px_make _ hr hc]

/-- Each quadrant of a 4x4 tile is the 2x2 tile its seed names (42_codebook R163). -/
theorem px_seedTile {r c : Nat} (cb2 : List Tile) (l : List Byte) (k : Nat) (hr : r < 4) (hc : c < 4) :
    (seedTile cb2 l k).px r c = (seedQuadrant cb2 l (4 * k + 2 * (r / 2) + c / 2)).px (r % 2) (c % 2) := by
  have halves : ∀ n < 4, (n < 2 ∧ n / 2 = 0 ∧ n % 2 = n) ∨ (¬ n < 2 ∧ n / 2 = 1 ∧ n % 2 = n - 2) := by omega
  rw [seedTile, tile4, px_make _ hr hc]
  rcases halves r hr with ⟨htop, hr2, hrm⟩ | ⟨htop, hr2, hrm⟩ <;>
    rcases halves c hc with ⟨hleft, hc2, hcm⟩ | ⟨hleft, hc2, hcm⟩ <;>
      simp only [htop, hleft, hr2, hrm, hc2, hcm, if_true, if_false, Nat.mul_zero, Nat.add_zero]

theorem px_seedTiles {cb2 : List Tile} {n k r c m : Nat} {l : List Byte} (hk : k < n) (hr : r < 4) (hc : c < 4) :
    ((seedTiles cb2 n (l.drop m)).getD k []).px r c =
      (cb2.getD (l.getD (m + 4 * k + 2 * (r / 2) + c / 2) 0).toNat []).px (r % 2) (c % 2) := by
  rw [seedTiles, getD_map_range _ hk, px_seedTile _ _ _ hr hc, seedQuadrant, getD_drop, ← Nat.add_assoc,
    ← Nat.add_assoc]

/-- Every pixel of an 8x8 tile is that of the 4x4 tile at half its row and column (42_codebook R164). -/
theorem px_map_tile8 {cb4 : List Tile} {k r c : Nat} (hk : k < cb4.length) (hr : r < 8) (hc : c < 8) :
    ((cb4.map tile8).getD k []).px r c = (cb4.getD k []).px (r / 2) (c / 2) := by
  have hmap : (cb4.map tile8).getD k [] = tile8 (cb4.getD k []) := by simp [List.getD_eq_getElem?_getD, hk]
  rw [hmap, tile8, px_make _ hr hc]

/-! ## The records of CB2 (42_codebook R162) -/

theorem build2_succ (sel : ConvSel) (d : Depth) (n : Nat) {l : List Byte} (hl : 6 ≤ l.length) :
    build2 sel d (n + 1) l =
      (recordTile sel d l 0 :: (build2 sel d n (l.drop 6)).1, (build2 sel d n (l.drop 6)).2) := by
  match l, hl with
  | y0 :: y1 :: y2 :: y3 :: u :: v :: rest, _ => rfl

/-- With all its bytes there, CB2 has the tile of each record, and the seed records follow (30_encoding R98). -/
theorem build2_eq (sel : ConvSel) (d : Depth) {n : Nat} {l : List Byte} (hl : 6 * n ≤ l.length) :
    build2 sel d n l = (recordTiles sel d n l, l.drop (6 * n)) := by
  induction n generalizing l with
  | zero => simp [build2, recordTiles]
  | succ n ih =>
    rw [build2_succ sel d n (by omega), ih (by rw [List.length_drop]; omega), recordTiles, recordTiles,
      recordTile_drop, List.drop_drop, List.range_succ_eq_map, List.map_cons, List.map_map, Nat.mul_succ,
      Nat.add_comm (6 * n)]

/-! ## The records of CB4 (42_codebook R163, R167) -/

section Seeds

variable {cb2 : List Tile} {n2 : Nat} {l : List Byte}

/-- A seed of the first record at or above n2 ends the work (42_codebook R167). -/
theorem build4_bad (k : Nat) (hl : 4 ≤ l.length) (hbad : ∃ m < 4, n2 ≤ (l.getD m 0).toNat) :
    build4 cb2 n2 (k + 1) l = ([], false) := by
  match l, hl with
  | a :: b :: c :: d :: rest, _ =>
    obtain ⟨m, hm, hseed⟩ := hbad
    rw [build4, if_pos]
    match m, hm with
    | 0, _ => exact .inl hseed
    | 1, _ => exact .inr (.inl hseed)
    | 2, _ => exact .inr (.inr (.inl hseed))
    | 3, _ => exact .inr (.inr (.inr hseed))

theorem build4_good (k : Nat) (hl : 4 ≤ l.length) (hgood : ∀ m < 4, (l.getD m 0).toNat < n2) :
    build4 cb2 n2 (k + 1) l =
      (seedTile cb2 l 0 :: (build4 cb2 n2 k (l.drop 4)).1, (build4 cb2 n2 k (l.drop 4)).2) := by
  match l, hl with
  | a :: b :: c :: d :: rest, _ =>
    have ha : a.toNat < n2 := hgood 0 (by decide)
    have hb : b.toNat < n2 := hgood 1 (by decide)
    have hc : c.toNat < n2 := hgood 2 (by decide)
    have hd : d.toNat < n2 := hgood 3 (by decide)
    rw [build4, if_neg (by omega)]
    rfl

/-- After `k` records of good seeds the list holds their tiles, and the work goes on with the rest of the records. -/
theorem build4_append {k : Nat} (m : Nat) (hl : 4 * k ≤ l.length) (hgood : ∀ j < 4 * k, (l.getD j 0).toNat < n2) :
    build4 cb2 n2 (k + m) l =
      (seedTiles cb2 k l ++ (build4 cb2 n2 m (l.drop (4 * k))).1, (build4 cb2 n2 m (l.drop (4 * k))).2) := by
  induction k generalizing l with
  | zero => simp [seedTiles]
  | succ k ih =>
    have hrest : ∀ j < 4 * k, ((l.drop 4).getD j 0).toNat < n2 := fun j hj => by
      rw [getD_drop]; exact hgood _ (by omega)
    rw [Nat.add_right_comm, build4_good _ (by omega) fun j hj => hgood j (by omega),
      ih (by rw [List.length_drop]; omega) hrest, seedTiles, seedTiles, seedTile_drop, List.drop_drop,
      List.range_succ_eq_map, List.map_cons, List.map_map, Nat.mul_succ, Nat.add_comm (4 * k), List.cons_append]

/-- With every seed below n2 there is a tile for each record. -/
theorem build4_eq {k : Nat} (hl : 4 * k ≤ l.length) (hgood : ∀ j < 4 * k, (l.getD j 0).toNat < n2) :
    build4 cb2 n2 k l = (seedTiles cb2 k l, true) := by
  simpa [build4] using build4_append 0 hl hgood

/-- At the first bad record `k` there are the tiles of the records before it. -/
theorem build4_eq_of_bad {k n4 : Nat} (hk : k < n4) (hl : 4 * n4 ≤ l.length)
    (hgood : ∀ j < 4 * k, (l.getD j 0).toNat < n2) (hbad : ∃ m < 4, n2 ≤ (l.getD (4 * k + m) 0).toNat) :
    build4 cb2 n2 n4 l = (seedTiles cb2 k l, false) := by
  obtain ⟨m, rfl⟩ : ∃ m, n4 = k + (m + 1) := ⟨n4 - k - 1, by omega⟩
  rw [build4_append _ (by omega) hgood,
    build4_bad _ (by rw [List.length_drop]; omega) (by simpa only [getD_drop] using hbad), List.append_nil]

/-- No byte after the seed records is read. -/
theorem build4_take (cb2 : List Tile) (n2 k : Nat) (l : List Byte) :
    build4 cb2 n2 k (l.take (4 * k)) = build4 cb2 n2 k l := by
  induction k generalizing l with
  | zero => simp [build4]
  | succ k ih =>
    match l with
    | a :: b :: c :: d :: rest => simp only [Nat.mul_succ, List.take_succ_cons, build4, ih]
    | [] | [_] | [_, _] | [_, _, _] => simp [Nat.mul_succ, build4]

end Seeds

/-! ## The meaning of CODEBOOK -/

/-- The 4x4 tiles of a payload, up to the first bad seed record, and whether there was none (42_codebook R163, R167). -/
def seededTiles (sel : ConvSel) (d : Depth) (n2 n4 : Nat) (l : List Byte) : List Tile × Bool :=
  build4 (recordTiles sel d n2 l) n2 n4 (l.drop (6 * n2))

/-- The three tile memories take CB2 and CB4 (42_codebook R164). -/
def storeTiles (cb2 cb4 : List Tile) (x : Session) : Session :=
  { x with cb2 := cb2, cb4 := cb4, cb8 := cb4.map tile8 }

/-- The tiles depend on the bytes of the records only (42_codebook R166). -/
theorem tiles_congr {n2 n4 : Nat} {l l' : List Byte} (sel : ConvSel) (d : Depth)
    (hbytes : ∀ k < 6 * n2 + 4 * n4, l[k]? = l'[k]?) :
    recordTiles sel d n2 l = recordTiles sel d n2 l' ∧ seededTiles sel d n2 n4 l = seededTiles sel d n2 n4 l' := by
  have hgetD : ∀ k < 6 * n2, l.getD k 0 = l'.getD k 0 := fun k hk => by
    rw [List.getD_eq_getElem?_getD, hbytes k (by omega), List.getD_eq_getElem?_getD]
  have hcb2 : recordTiles sel d n2 l = recordTiles sel d n2 l' := List.map_congr_left fun k hk => by
    have hkn := List.mem_range.mp hk
    refine Tile.make_congr fun r hr c hc => ?_
    rw [hgetD _ (by omega), hgetD _ (by omega), hgetD _ (by omega)]
  have hseeds : (l.drop (6 * n2)).take (4 * n4) = (l'.drop (6 * n2)).take (4 * n4) := List.ext_getElem? fun i => by
    simp only [List.getElem?_take, List.getElem?_drop]
    split_ifs with hi
    · exact hbytes _ (by omega)
    · rfl
  refine ⟨hcb2, ?_⟩
  rw [seededTiles, seededTiles, hcb2, ← build4_take, hseeds, build4_take]

/-- The counts are the aux bytes, with 0 for 256 where 30_encoding R97 says so: the bound by the capacity 256 of a
table never cuts a byte. -/
theorem codebookCounts_eq (aux0 aux1 : Byte) :
    codebookCounts aux0 aux1 =
      (if aux1 = 0 then 256 else aux1.toNat, if aux0 = 0 ∧ aux1 = 0 then 256 else aux0.toNat) := by
  have h0 : aux0.toNat ≤ 256 := aux0.isLt.le
  have h1 : aux1.toNat ≤ 256 := aux1.isLt.le
  by_cases hz : aux0 = 0 ∧ aux1 = 0
  · simp [codebookCounts, hz]
  · rw [codebookCounts, if_neg hz, if_neg hz, Nat.min_eq_left h0, Nat.min_eq_left (by split <;> omega)]

section Ready

variable {s : State} {h : Nat} {x : Session} {src : Source} {hd : ChunkHdr} {n2 n4 : Nat}
  (hr : ChunkReady s h x src hd) (h2 : n2 = if hd.aux1 = 0 then 256 else hd.aux1.toNat)
  (h4 : n4 = if hd.aux0 = 0 ∧ hd.aux1 = 0 then 256 else hd.aux0.toNat)

include hr h2 h4

/-- With too few bytes for its records CODEBOOK writes no tile (42_codebook R167). -/
theorem ChunkReady.exec_codebook_truncated (hlen : hd.len.toNat < 6 * n2 + 4 * n4) :
    exec (.codebook hd) s = .next (raiseFatal s h .truncated (loaded src s.cfg.tagCodebook hd x)) := by
  have hcounts : codebookCounts hd.aux0 hd.aux1 = (n2, n4) := by rw [codebookCounts_eq, h2, h4]
  rw [exec, execCodebook, hr.atChunk_eq, doCodebook]
  simp only [loaded, hcounts, if_pos hlen, endChunk_raised]

/-- With the bytes of its records there, CODEBOOK writes the tiles, and the counts unless a seed was bad. -/
theorem ChunkReady.exec_codebook (hlen : 6 * n2 + 4 * n4 ≤ hd.len.toNat) {y : Session}
    (hy : y = loaded src s.cfg.tagCodebook hd x) {cb4 : List Tile} {ok : Bool}
    (hcb4 : seededTiles s.cfg.conv x.bpp n2 n4 y.payload = (cb4, ok)) :
    exec (.codebook hd) s = endChunk s h
      (if ok then
        .ok { storeTiles (recordTiles s.cfg.conv x.bpp n2 y.payload) cb4 y with
          n2 := BitVec.ofNat 9 n2, n4 := BitVec.ofNat 9 n4 }
      else .raised .indexOutOfRange (storeTiles (recordTiles s.cfg.conv x.bpp n2 y.payload) cb4 y)) := by
  have hcounts : codebookCounts y.cAux0 y.cAux1 = (n2, n4) := by rw [hy, h2, h4]; exact codebookCounts_eq ..
  have hpay : y.payload.length = hd.len.toNat := by rw [hy, loaded_payload_length]
  have hlong : ¬ y.cLen.toNat < 6 * n2 + 4 * n4 := by rw [hy]; exact Nat.not_lt.mpr hlen
  have hbpp : y.bpp = x.bpp := by rw [hy]; rfl
  have hb2 : build2 s.cfg.conv y.bpp n2 y.payload =
      (recordTiles s.cfg.conv x.bpp n2 y.payload, y.payload.drop (6 * n2)) := by
    rw [hbpp, build2_eq _ _ (by omega)]
  rw [seededTiles] at hcb4
  rw [exec, execCodebook, hr.atChunk_eq, ← hy]
  simp only [doCodebook, hcounts, if_neg hlong, hb2, hcb4, storeTiles]

/-- Whether CODEBOOK completes or traps at a bad seed, the slot holds the tiles built from the payload; with no bad seed
it holds the counts too (42_codebook R165, R167). -/
theorem ChunkReady.codebook_slot (hlen : 6 * n2 + 4 * n4 ≤ hd.len.toNat) {t : State} {y : Session}
    (ht : exec (.codebook hd) s = .next t) (hy : t.slots[h]? = some y) :
    let l := srcRead src (x.offset.toNat + 8) hd.len.toNat
    y.cb2 = recordTiles s.cfg.conv x.bpp n2 l ∧ y.cb4 = (seededTiles s.cfg.conv x.bpp n2 n4 l).1 ∧
      y.cb8 = (seededTiles s.cfg.conv x.bpp n2 n4 l).1.map tile8 ∧
      if (seededTiles s.cfg.conv x.bpp n2 n4 l).2 then y.n2 = BitVec.ofNat 9 n2 ∧ y.n4 = BitVec.ofNat 9 n4
      else y.status = .endOfStream := by
  have hlt : h < s.slots.length := (List.getElem?_eq_some_iff.mp hr.slot).1
  rw [hr.exec_codebook h2 h4 hlen rfl rfl] at ht
  split at ht
  case isTrue hok =>
    cases ht
    obtain rfl := Option.some.inj ((slots_setSlot_self _ _ _ hlt).symm.trans hy)
    exact ⟨rfl, rfl, rfl, (if_pos hok).mpr ⟨rfl, rfl⟩⟩
  case isFalse hbad =>
    cases ht
    obtain rfl := Option.some.inj ((slots_setSlot_self _ _ _ hlt).symm.trans hy)
    exact ⟨rfl, rfl, rfl, (if_neg hbad).mpr rfl⟩

/-- With every seed below n2 CODEBOOK completes, with a tile for each record. -/
theorem ChunkReady.codebook_done (hlen : 6 * n2 + 4 * n4 ≤ hd.len.toNat) {y : Session}
    (hy : y = loaded src s.cfg.tagCodebook hd x) (hgood : ∀ j < 4 * n4, (y.payload.getD (6 * n2 + j) 0).toNat < n2) :
    ∃ (u : Session) (k : Nat),
      exec (.codebook hd) s =
        .next (chunkDone s h hd.len u k
          { storeTiles (recordTiles s.cfg.conv x.bpp n2 y.payload)
              (seedTiles (recordTiles s.cfg.conv x.bpp n2 y.payload) n4 (y.payload.drop (6 * n2))) y with
            n2 := BitVec.ofNat 9 n2, n4 := BitVec.ofNat 9 n4 }) := by
  have hpay : y.payload.length = hd.len.toNat := by rw [hy, loaded_payload_length]
  rw [hr.exec_codebook h2 h4 hlen hy
    (build4_eq (by rw [List.length_drop]; omega) (by simpa only [getD_drop] using hgood))]
  exact endChunk_eq_chunkDone s h (by rw [hy]; rfl)

/-- At the first bad record `k` CODEBOOK traps, with the tiles of the records before it (42_codebook R167). -/
theorem ChunkReady.codebook_traps (hlen : 6 * n2 + 4 * n4 ≤ hd.len.toNat) {y : Session}
    (hy : y = loaded src s.cfg.tagCodebook hd x) {k : Nat} (hk : k < n4)
    (hgood : ∀ j < 4 * k, (y.payload.getD (6 * n2 + j) 0).toNat < n2)
    (hbad : ∃ m < 4, n2 ≤ (y.payload.getD (6 * n2 + 4 * k + m) 0).toNat) :
    Traps s h .indexOutOfRange
      (storeTiles (recordTiles s.cfg.conv x.bpp n2 y.payload)
        (seedTiles (recordTiles s.cfg.conv x.bpp n2 y.payload) k (y.payload.drop (6 * n2))) y)
      (exec (.codebook hd) s) := by
  have hpay : y.payload.length = hd.len.toNat := by rw [hy, loaded_payload_length]
  rw [hr.exec_codebook h2 h4 hlen hy
    (build4_eq_of_bad hk (by rw [List.length_drop]; omega) (by simpa only [getD_drop] using hgood)
      (by simpa only [getD_drop, Nat.add_assoc] using hbad))]
  exact traps_raiseFatal hr.phase .indexOutOfRange _

end Ready

/-- Settles O14: no seed is bad, so each list has a tile for each record, with the pixels the `px_` lemmas give. -/
theorem codebookBuilds : Obligations.CodebookBuilds := by
  unfold Obligations.CodebookBuilds
  intro s h x y src hd n2 n4 pay hr hy hpay h2 h4 hlen hseeds
  obtain rfl : pay = fun k => y.payload.getD k 0 := funext hpay
  obtain ⟨u, k, hdone⟩ := hr.codebook_done h2 h4 hlen hy hseeds
  exact ⟨_, _, _, u, k, hdone, recordTiles_length .., seedTiles_length .., map_tile8_seedTiles_length ..,
    fun k hk r hr c hc => px_recordTiles hk hr hc, fun k hk r hr c hc => px_seedTiles hk hr hc,
    fun k hk r hr c hc => px_map_tile8 (hk.trans_eq (seedTiles_length ..).symm) hr hc⟩

/-- Settles O15: the length is checked before the records are read, and the tiles stop at the first bad record. -/
theorem codebookErrors : Obligations.CodebookErrors := by
  unfold Obligations.CodebookErrors
  intro s h x y src hd n2 n4 pay hr hy hpay h2 h4
  obtain rfl : pay = fun k => y.payload.getD k 0 := funext hpay
  refine ⟨fun hshort => ?truncated, fun hlen k hk hgood hbad => ?badSeed⟩
  case truncated =>
    rw [hr.exec_codebook_truncated h2 h4 hshort, hy]
    exact traps_raiseFatal hr.phase .truncated _
  case badSeed =>
    exact ⟨_, _, _, hr.codebook_traps h2 h4 hlen hy hk hgood hbad, recordTiles_length .., seedTiles_length ..,
      map_tile8_seedTiles_length ..⟩

/-- Settles O16: the tiles of both sessions are those built from the same records. -/
theorem codebookDependsOnlyOnItsInputs : Obligations.CodebookDependsOnlyOnItsInputs := by
  unfold Obligations.CodebookDependsOnlyOnItsInputs
  intro s s' t t' h h' x x' y y' src src' hd hd' n2 n4 hr hr' hconv hbpp h0 h1 h2 h4 hlen hlen' hbytes ht ht' hy hy'
  obtain ⟨hcb2, hcb4, hcb8, hn⟩ := hr.codebook_slot h2 h4 hlen ht hy
  obtain ⟨hcb2', hcb4', hcb8', hn'⟩ := hr'.codebook_slot (h1 ▸ h2) (h0 ▸ h1 ▸ h4) hlen' ht' hy'
  obtain ⟨hsame2, hsame4⟩ := tiles_congr s.cfg.conv x.bpp hbytes
  rw [← hconv, ← hbpp, ← hsame2] at hcb2'
  rw [← hconv, ← hbpp, ← hsame4] at hcb4' hcb8' hn'
  refine ⟨hcb2.trans hcb2'.symm, hcb4.trans hcb4'.symm, hcb8.trans hcb8'.symm, fun hst => ?counts⟩
  case counts =>
    split at hn
    case isTrue hok =>
      obtain ⟨hn2, hn4⟩ := hn
      obtain ⟨hn2', hn4'⟩ := (if_pos hok).mp hn'
      exact ⟨hn2.trans hn2'.symm, hn4.trans hn4'.symm⟩
    case isFalse => exact absurd hn hst

end Sys2Proof.Machine
end

section
/-! The tables a VIDEO chunk opens with (43_quadtree_video R180 to R183): AT node by node in the order of its macroblocks,
MCOMP in closed form, and the prologue that builds them. -/

namespace Sys2Proof.Machine

/-! ## The blocks of a frame in the order of AT (R180)

Positions are in blocks: column `a.1` and row `a.2` of the grid of 8x8 blocks. -/

/-- The blocks of `rows` rows of `cols` macroblocks, each quartered `n` times, in the order AT lists them. -/
def blockWalk (n cols rows : Nat) : List (Nat × Nat) :=
  (List.range rows).flatMap fun j =>
    (List.range cols).flatMap fun i => (zOrder n).map fun b => (2 ^ n * i + b.1, 2 ^ n * j + b.2)

/-- The block is wholly inside the w x h area. -/
def blockFits (w h : Nat) (a : Nat × Nat) : Bool := decide (a.1 < w / 8 ∧ a.2 < h / 8)

/-- The blocks that are nodes of AT, in its order. -/
def atBlocks (n w h : Nat) : List (Nat × Nat) :=
  (blockWalk n ((w + 8 * 2 ^ n - 1) / (8 * 2 ^ n)) ((h + 8 * 2 ^ n - 1) / (8 * 2 ^ n))).filter (blockFits w h)

/-- The five entries of the node at a block: its corner, and those of its four children. -/
def nodeCorners (a : Nat × Nat) : List (Nat × Nat) :=
  [(8 * a.1, 8 * a.2), (8 * a.1, 8 * a.2), (8 * a.1 + 4, 8 * a.2), (8 * a.1, 8 * a.2 + 4), (8 * a.1 + 4, 8 * a.2 + 4)]

theorem nodeEntries_block (w h : Nat) (a : Nat × Nat) :
    nodeEntries w h (8 * a.1) (8 * a.2) = if blockFits w h a then nodeCorners a else [] := by
  have hfits : (8 * a.1 + 8 ≤ w ∧ 8 * a.2 + 8 ≤ h) ↔ blockFits w h a = true := by
    simp only [blockFits, decide_eq_true_eq]; omega
  rw [nodeEntries]
  exact if_congr hfits rfl rfl

theorem flatMap_nodeEntries (w h : Nat) (l : List (Nat × Nat)) :
    (l.flatMap fun a => nodeEntries w h (8 * a.1) (8 * a.2)) = (l.filter (blockFits w h)).flatMap nodeCorners := by
  induction l with
  | nil => rfl
  | cons a t ih =>
    rw [List.flatMap_cons, List.filter_cons, ih, nodeEntries_block]
    split <;> simp

/-- AT is the list of its nodes' entries. -/
theorem genTable_eq {p : Params} {n : Nat} (hmb : p.mb = 8 * 2 ^ n) (w h : Nat) :
    genTable p w h = (atBlocks n w h).flatMap nodeCorners := by
  rw [atBlocks, ← flatMap_nodeEntries]
  simp only [genTable, blockWalk, mbLevels_eq hmb, hmb, List.flatMap_assoc, List.flatMap_map, Nat.mul_add, Nat.mul_assoc]

theorem length_flatMap_nodeCorners (l : List (Nat × Nat)) : (l.flatMap nodeCorners).length = 5 * l.length := by
  simp [List.length_flatMap, nodeCorners, Nat.mul_comm]

theorem getElem?_flatMap_nodeCorners (l : List (Nat × Nat)) {k j : Nat} (hj : j < 5) :
    (l.flatMap nodeCorners)[5 * k + j]? = l[k]?.bind fun a => (nodeCorners a)[j]? := by
  induction l generalizing k with
  | nil => simp
  | cons a t ih =>
    have hlen : (nodeCorners a).length = 5 := rfl
    rw [List.flatMap_cons]
    cases k with
    | zero => rw [List.getElem?_append_left (by omega)]; simp
    | succ k =>
      rw [List.getElem?_append_right (by omega), hlen, show 5 * (k + 1) + j - 5 = 5 * k + j by omega, ih,
        List.getElem?_cons_succ]

/-! ## Which blocks are nodes (R180) -/

theorem mem_blockWalk {n cols rows : Nat} {a : Nat × Nat} :
    a ∈ blockWalk n cols rows ↔ a.1 < cols * 2 ^ n ∧ a.2 < rows * 2 ^ n := by
  have hpos : 0 < 2 ^ n := Nat.two_pow_pos n
  have hlt : ∀ {i c k : Nat}, i < k → c < 2 ^ n → 2 ^ n * i + c < k * 2 ^ n := fun {i c k} hi hc =>
    calc 2 ^ n * i + c < 2 ^ n * (i + 1) := by rw [Nat.mul_succ]; omega
      _ ≤ 2 ^ n * k := Nat.mul_le_mul_left _ hi
      _ = k * 2 ^ n := Nat.mul_comm _ _
  simp only [blockWalk, List.mem_flatMap, List.mem_map, List.mem_range]
  constructor
  · rintro ⟨j, hj, i, hi, b, hb, rfl⟩
    obtain ⟨hb1, hb2⟩ := mem_zOrder.mp hb
    exact ⟨hlt hi hb1, hlt hj hb2⟩
  · rintro ⟨h1, h2⟩
    exact ⟨a.2 / 2 ^ n, (Nat.div_lt_iff_lt_mul hpos).mpr h2, a.1 / 2 ^ n, (Nat.div_lt_iff_lt_mul hpos).mpr h1,
      (a.1 % 2 ^ n, a.2 % 2 ^ n), mem_zOrder.mpr ⟨Nat.mod_lt _ hpos, Nat.mod_lt _ hpos⟩,
      Prod.ext (Nat.div_add_mod _ _) (Nat.div_add_mod _ _)⟩

/-- The macroblocks of a row cover its blocks: the last one may stand out. -/
theorem blocks_le_macroblocks (n w : Nat) : w / 8 ≤ (w + 8 * 2 ^ n - 1) / (8 * 2 ^ n) * 2 ^ n := by
  have hpos : 0 < 2 ^ n := Nat.two_pow_pos n
  have hup : w + 8 * 2 ^ n - 1 < 8 * 2 ^ n * ((w + 8 * 2 ^ n - 1) / (8 * 2 ^ n) + 1) :=
    Nat.lt_mul_div_succ _ (by omega)
  have hw : w + 8 * 2 ^ n - 1 < 8 * ((w + 8 * 2 ^ n - 1) / (8 * 2 ^ n) * 2 ^ n) + 8 * 2 ^ n := by
    calc w + 8 * 2 ^ n - 1 < 8 * 2 ^ n * ((w + 8 * 2 ^ n - 1) / (8 * 2 ^ n) + 1) := hup
      _ = _ := by ring
  omega

theorem mem_atBlocks {n w h : Nat} {a : Nat × Nat} : a ∈ atBlocks n w h ↔ a.1 < w / 8 ∧ a.2 < h / 8 := by
  simp only [atBlocks, List.mem_filter, mem_blockWalk, blockFits, decide_eq_true_eq, and_iff_right_iff_imp]
  exact fun ⟨h1, h2⟩ => ⟨h1.trans_le (blocks_le_macroblocks n w), h2.trans_le (blocks_le_macroblocks n h)⟩

/-! ## Their order (R180) -/

/-- Inside a macroblock quartered `n` times block `a` comes before `b`: in the largest quarter that parts them, a quarter
of an edge of 2^m blocks, `a` lies in an earlier one in the order top-left, top-right, bottom-left, bottom-right. -/
def ZBefore (n : Nat) (a b : Nat × Nat) : Prop :=
  ∃ m < n, a.1 / 2 ^ (m + 1) = b.1 / 2 ^ (m + 1) ∧ a.2 / 2 ^ (m + 1) = b.2 / 2 ^ (m + 1) ∧
    2 * (a.2 / 2 ^ m % 2) + a.1 / 2 ^ m % 2 < 2 * (b.2 / 2 ^ m % 2) + b.1 / 2 ^ m % 2

/-- Block `a` comes before `b` in AT: in an earlier row of macroblocks, or further left in it, or earlier inside the
macroblock. -/
def WalkBefore (n : Nat) (a b : Nat × Nat) : Prop :=
  a.2 / 2 ^ n < b.2 / 2 ^ n ∨
    (a.2 / 2 ^ n = b.2 / 2 ^ n ∧ (a.1 / 2 ^ n < b.1 / 2 ^ n ∨ (a.1 / 2 ^ n = b.1 / 2 ^ n ∧ ZBefore n a b)))

theorem not_walkBefore_self (n : Nat) (a : Nat × Nat) : ¬ WalkBefore n a a := by
  rintro (h | ⟨-, h | ⟨-, m, -, -, -, h⟩⟩) <;> exact absurd h (Nat.lt_irrefl _)

/-- A position inside a macroblock of 2^n blocks, in quarters of 2^m blocks: the macroblock's place does not change which
quarter of the next larger one it is. -/
theorem shifted_quarter {m n : Nat} (hm : m < n) (c x : Nat) :
    (2 ^ n * c + x) / 2 ^ (m + 1) = 2 ^ (n - (m + 1)) * c + x / 2 ^ (m + 1) ∧
      (2 ^ n * c + x) / 2 ^ m % 2 = x / 2 ^ m % 2 := by
  obtain ⟨d, rfl⟩ := Nat.exists_eq_add_of_lt hm
  have hhalf : 2 ^ (m + d + 1) * c + x = 2 ^ (m + 1) * (2 ^ d * c) + x := by ring
  have hquarter : 2 ^ (m + d + 1) * c + x = 2 ^ m * (2 * (2 ^ d * c)) + x := by ring
  constructor
  · rw [hhalf, Nat.mul_add_div (Nat.two_pow_pos _), show m + d + 1 - (m + 1) = d by omega]
  · rw [hquarter, Nat.mul_add_div (Nat.two_pow_pos _), Nat.mul_add_mod]

/-- The order inside a macroblock does not depend on its place, which may be inside a larger one. -/
theorem ZBefore.shift {n k : Nat} {a b : Nat × Nat} (hab : ZBefore n a b) (hnk : n ≤ k) (c d : Nat) :
    ZBefore k (2 ^ n * c + a.1, 2 ^ n * d + a.2) (2 ^ n * c + b.1, 2 ^ n * d + b.2) := by
  obtain ⟨m, hm, h1, h2, hlt⟩ := hab
  refine ⟨m, hm.trans_le hnk, ?_⟩
  simpa only [shifted_quarter hm, h1, h2, true_and] using hlt

/-- Blocks of different quarters are in the order of the quarters. -/
theorem zBefore_of_quarter_lt {n q q' : Nat} (hq' : q' < 4) (hqq : q < q') {a b : Nat × Nat}
    (ha : a ∈ zOrder n) (hb : b ∈ zOrder n) :
    ZBefore (n + 1) (2 ^ n * (q % 2) + a.1, 2 ^ n * (q / 2) + a.2) (2 ^ n * (q' % 2) + b.1, 2 ^ n * (q' / 2) + b.2) := by
  obtain ⟨ha1, ha2⟩ := mem_zOrder.mp ha
  obtain ⟨hb1, hb2⟩ := mem_zOrder.mp hb
  have hwhole : ∀ {r x : Nat}, r < 2 → x < 2 ^ n → (2 ^ n * r + x) / 2 ^ (n + 1) = 0 := fun {r x} hr hx =>
    Nat.div_eq_of_lt (calc
      2 ^ n * r + x < 2 ^ n * (r + 1) := by rw [Nat.mul_succ]; omega
      _ ≤ 2 ^ (n + 1) := by rw [pow_succ]; exact Nat.mul_le_mul_left _ hr)
  have hquarter : ∀ {r x : Nat}, x < 2 ^ n → (2 ^ n * r + x) / 2 ^ n = r := fun {r x} hx => by
    rw [Nat.mul_add_div (Nat.two_pow_pos n), Nat.div_eq_of_lt hx, Nat.add_zero]
  refine ⟨n, Nat.lt_succ_self n, ?_, ?_, ?_⟩
  · simp only [hwhole (Nat.mod_lt _ Nat.two_pos) ha1, hwhole (Nat.mod_lt _ Nat.two_pos) hb1]
  · simp only [hwhole (show q / 2 < 2 by omega) ha2, hwhole (show q' / 2 < 2 by omega) hb2]
  · simp only [hquarter ha1, hquarter ha2, hquarter hb1, hquarter hb2]; omega

theorem zOrder_pairwise (n : Nat) : (zOrder n).Pairwise (ZBefore n) := by
  induction n with
  | zero => exact List.pairwise_singleton _ _
  | succ n ih =>
    rw [zOrder, List.pairwise_flatMap]
    refine ⟨fun q _ => List.pairwise_map.mpr (ih.imp fun hab => hab.shift (Nat.le_succ n) _ _), ?_⟩
    refine List.pairwise_lt_range.imp_of_mem fun hq hq' hqq a ha b hb => ?_
    obtain ⟨a', ha', rfl⟩ := List.mem_map.mp ha
    obtain ⟨b', hb', rfl⟩ := List.mem_map.mp hb
    exact zBefore_of_quarter_lt (List.mem_range.mp hq') hqq ha' hb'

/-- A block of the walk tells its macroblock. -/
theorem macroblock_of_mem {n i j : Nat} {a : Nat × Nat}
    (ha : a ∈ (zOrder n).map fun b => (2 ^ n * i + b.1, 2 ^ n * j + b.2)) : a.1 / 2 ^ n = i ∧ a.2 / 2 ^ n = j := by
  obtain ⟨b, hb, rfl⟩ := List.mem_map.mp ha
  obtain ⟨hb1, hb2⟩ := mem_zOrder.mp hb
  simp [Nat.mul_add_div, Nat.div_eq_of_lt, hb1, hb2]

theorem blockWalk_pairwise (n cols rows : Nat) : (blockWalk n cols rows).Pairwise (WalkBefore n) := by
  refine List.pairwise_flatMap.mpr ⟨fun j _ => List.pairwise_flatMap.mpr ⟨fun i _ => ?inside, ?alongRow⟩, ?rowByRow⟩
  case inside =>
    refine List.Pairwise.imp_of_mem (R := ZBefore n) (fun {a b} ha hb hab => ?_)
      (List.pairwise_map.mpr ((zOrder_pairwise n).imp fun hab => hab.shift le_rfl _ _))
    obtain ⟨ha1, ha2⟩ := macroblock_of_mem ha
    obtain ⟨hb1, hb2⟩ := macroblock_of_mem hb
    exact .inr ⟨ha2.trans hb2.symm, .inr ⟨ha1.trans hb1.symm, hab⟩⟩
  case alongRow =>
    refine List.pairwise_lt_range.imp fun hii a ha b hb => ?_
    obtain ⟨ha1, ha2⟩ := macroblock_of_mem ha
    obtain ⟨hb1, hb2⟩ := macroblock_of_mem hb
    exact .inr ⟨ha2.trans hb2.symm, .inl (by rwa [ha1, hb1])⟩
  case rowByRow =>
    refine List.pairwise_lt_range.imp fun hjj a ha b hb => ?_
    obtain ⟨i, -, ha⟩ := List.mem_flatMap.mp ha
    obtain ⟨i', -, hb⟩ := List.mem_flatMap.mp hb
    exact .inl (by rwa [(macroblock_of_mem ha).2, (macroblock_of_mem hb).2])

theorem atBlocks_pairwise (n w h : Nat) : (atBlocks n w h).Pairwise (WalkBefore n) :=
  (blockWalk_pairwise n _ _).filter _

/-- Every block that fits is a node once: the order is strict. -/
theorem atBlocks_length (n w h : Nat) : (atBlocks n w h).length = w / 8 * (h / 8) := by
  have hnodup : (atBlocks n w h).Nodup :=
    (atBlocks_pairwise n w h).imp (S := (· ≠ ·)) fun hab heq => not_walkBefore_self n _ (heq ▸ hab)
  have hgrid : (atBlocks n w h).Perm (List.range (w / 8) ×ˢ List.range (h / 8)) :=
    (List.perm_ext_iff_of_nodup hnodup (List.nodup_range.product List.nodup_range)).mpr fun a => by
      rw [mem_atBlocks, List.mem_product, List.mem_range, List.mem_range]
  rw [hgrid.length_eq, List.length_product, List.length_range, List.length_range]

/-! ## AT -/

/-- Settles O19: AT holds the entries of the blocks that fit, each block once, in the order of the walk. -/
theorem addressTable : Obligations.AddressTable := by
  unfold Obligations.AddressTable
  intro p n w h hmb
  rw [genTable_eq hmb, hmb]
  refine ⟨?count, fun k hk => ?node, fun k l x y x' y' hkl hx hx' => ?order⟩
  case count =>
    rw [length_flatMap_nodeCorners, atBlocks_length]
  case node =>
    rw [← atBlocks_length n w h] at hk
    obtain ⟨hw, hh⟩ := mem_atBlocks.mp (List.getElem_mem hk)
    have hentry : ∀ {j : Nat}, j < 5 →
        ((atBlocks n w h).flatMap nodeCorners)[5 * k + j]? = (nodeCorners (atBlocks n w h)[k])[j]? := fun hj => by
      rw [getElem?_flatMap_nodeCorners _ hj, List.getElem?_eq_getElem hk]; rfl
    exact ⟨8 * (atBlocks n w h)[k].1, 8 * (atBlocks n w h)[k].2, by omega, by omega, by omega, by omega,
      hentry (j := 0) (by decide), hentry (j := 1) (by decide), hentry (j := 2) (by decide),
      hentry (j := 3) (by decide), hentry (j := 4) (by decide)⟩
  case order =>
    have hblock : ∀ {k x y : Nat}, ((atBlocks n w h).flatMap nodeCorners)[5 * k]? = some (x, y) →
        ∃ hk : k < (atBlocks n w h).length, x = 8 * (atBlocks n w h)[k].1 ∧ y = 8 * (atBlocks n w h)[k].2 := by
      intro k x y hxy
      rw [← Nat.add_zero (5 * k), getElem?_flatMap_nodeCorners _ (by decide)] at hxy
      obtain ⟨a, ha, hcorner⟩ := Option.bind_eq_some_iff.mp hxy
      obtain ⟨hk, rfl⟩ := List.getElem?_eq_some_iff.mp ha
      cases hcorner
      exact ⟨hk, rfl, rfl⟩
    obtain ⟨hk, rfl, rfl⟩ := hblock hx
    obtain ⟨hl, rfl, rfl⟩ := hblock hx'
    have hbefore := List.pairwise_iff_getElem.mp (atBlocks_pairwise n w h) k l hk hl hkl
    simpa only [WalkBefore, ZBefore, Nat.mul_div_mul_left _ _ (show 0 < 8 by decide)] using hbefore

/-! ## MCOMP (R182) -/

/-- A motion base is the signed aux byte, clamped: four bits hold -8..7. -/
theorem motionBase_toInt (aux : Byte) : (motionBase aux).toInt = min (max aux.toInt (-8)) 7 := by
  rw [motionBase, clamp, BitVec.toInt_ofInt_eq_self (by decide)] <;> omega

theorem motionTable_getElem? (mdx mdy : BitVec 4) (b : Byte) :
    (motionTable mdx mdy)[b.toNat]? = some (motionEntry mdx mdy b.toNat) := by
  simp [motionTable, List.getElem?_range b.isLt]

/-- The nibbles of a motion byte (30_encoding R103). -/
theorem nibbles_toNat (b : Byte) :
    (b.extractLsb' 4 4).toNat = b.toNat / 16 ∧ (b.extractLsb' 0 4).toNat = b.toNat % 16 := by
  have hb : b.toNat < 256 := b.isLt
  rw [BitVec.extractLsb'_toNat, BitVec.extractLsb'_toNat, Nat.shiftRight_eq_div_pow, Nat.shiftRight_zero]
  exact ⟨Nat.mod_eq_of_lt (by omega), rfl⟩

/-- Settles O18: an entry is computed from the nibbles of its code, which are 0..15, and the clamped bases. -/
theorem motionTable_holds : Obligations.MotionTable := by
  unfold Obligations.MotionTable
  refine fun aux0 aux1 => ⟨by simp [motionTable], fun b => ?_⟩
  obtain ⟨hhigh, hlow⟩ := nibbles_toNat b
  have hb : b.toNat < 256 := b.isLt
  refine ⟨_, _, motionTable_getElem? .., ?_⟩
  rw [hhigh, hlow, motionBase_toInt, motionBase_toInt]
  omega

/-! ## The prologue (R183) -/

/-- AT after the prologue: kept while it is valid (R181). -/
theorem refreshTable_eq (p : Params) (x : Session) :
    refreshTable p x =
      { x with
        addrTable := if x.atValid then x.addrTable else genTable p x.w.toNat x.h.toNat
        atN := if x.atValid then x.atN else (genTable p x.w.toNat x.h.toNat).length / 5
        atValid := true } := by
  rw [refreshTable]
  split
  case isTrue hvalid => rw [← hvalid]
  case isFalse => rfl

/-- Settles O17: the prologue works on the loaded chunk, whose fetch leaves AT and the frame size as they were. -/
theorem videoPrologue : Obligations.VideoPrologue := by
  unfold Obligations.VideoPrologue
  intro s h x src hd hr
  rw [exec, execVideo, hr.atChunk_eq, commit_ok, openVideo, refreshTable_eq]
  rfl

end Sys2Proof.Machine
end

section
/-! The rest of a VIDEO chunk: the opcodes that read and write nothing, the motion copies, the errors of the opcodes, and the
completion of the frame (43_quadtree_video R184 to R196). -/

namespace Sys2Proof.Machine

/-! ## The errors of an opcode, in the terms of the statements -/

section Opcode

variable {s : State} {h : Nat} {x y : Session} {code : ErrCode}

/-- An error inside a VIDEO chunk traps (60_exceptions R290). -/
theorem traps_raiseFatal_video {pos : VideoPos} (hp : s.phase = .video h pos) (code : ErrCode) (y : Session) :
    Traps s h code y (.next (raiseFatal s h code y)) :=
  ⟨_, _, by rw [raiseFatal_eq_trapped, trapAnswer_of_ne_header (by simp [hp])]; rfl⟩

/-- A trap does not keep PPTR, which has no value outside the chunk (10_state R25). -/
theorem Traps.of_pptr {q : BitVec 17} {o : Host.Outcome State Fault Refusal}
    (ht : Traps s h code { y with pptr := q } o) : Traps s h code y o := ht

/-- An opcode of a node that raises an error traps. -/
theorem atNode_traps {k : Session → Res Session} (hp : s.phase = .video h .node) (hx : s.slots[h]? = some x)
    (hk : k x = .raised code y) :
    Traps s h code y (atNode s (fun h => .video h .node) fun x => (k x).andThen fun x1 => .ok (nextLeaf x1)) := by
  simp only [atNode, hp, hx, hk, andThen_raised, commit_raised]
  exact traps_raiseFatal_video hp code y

/-- An opcode of a child that raises an error traps. -/
theorem atChild_traps {j : Fin 4} {k : Fin 4 → Session → Res Session} (hp : s.phase = .video h (.child j))
    (hx : s.slots[h]? = some x) (hk : k j x = .raised code y) : Traps s h code y (atChild s k) := by
  simp only [atChild, hp, hx, hk, andThen_raised, commit_raised]
  exact traps_raiseFatal_video hp code y

end Opcode

/-! ## Opcode words (R184) -/

/-- Settles O21: at a node and at a child the fetch asks the empty cache for an opcode, and the word is not there. -/
theorem opcodeWordMissingIsTruncated : Obligations.OpcodeWordMissingIsTruncated := by
  unfold Obligations.OpcodeWordMissingIsTruncated
  intro s h pos x src hp hq hx hs hleaf hopn hlen
  have hf : fetch s = fetchVideo s h pos x := fetch_slot hq hx hs (by rw [fetchPlace, hp])
  have hword : nextOpcode x = .raised .truncated x := by rw [nextOpcode, if_pos hopn, if_pos hlen]
  have hdone : fetchVideo s h pos x = .done (.next (raiseFatal s h .truncated x)) := by
    cases pos with
    | node => rw [fetchVideo, if_pos (hleaf rfl), fetchOpcode, hword]
    | child j => rw [fetchVideo, fetchOpcode, hword]
  rw [step_of_done (hf.trans hdone)]
  exact traps_raiseFatal_video hp .truncated x

/-! ## SKIP8, SKIP4 and SUB8 (R186, R189, R190) -/

/-- Settles O22: the operation of both skips is the identity, so only the position steps on. -/
theorem skipTouchesNothing : Obligations.SkipTouchesNothing := by
  unfold Obligations.SkipTouchesNothing
  exact ⟨fun s h x hp hx => atNode_eq_nodeDone (k := .ok) hp hx rfl,
    fun s h j x hp hx => atChild_eq_childDone (k := fun _ => .ok) hp hx rfl⟩

/-- Settles O23: SUB8 stores the session as it is and goes to child 0. -/
theorem subdivideGoesToTheChildren : Obligations.SubdivideGoesToTheChildren := by
  unfold Obligations.SubdivideGoesToTheChildren
  intro s h x hp hx
  simp only [exec, execSub8, atNode, hp, hx, commit_ok]
  rfl

/-! ## The operand byte (R185) -/

section Operand

variable {x : Session} {n i : Nat} {b : Byte} {cb : List Tile} {col row : Nat} {mx my : Int}

theorem nextByte_truncated (hlen : x.cLen.toNat ≤ x.pptr.toNat) : nextByte x = .raised .truncated x := by
  rw [nextByte, if_pos (by omega)]

theorem motionBlock_truncated (n i : Nat) (hlen : x.cLen.toNat ≤ x.pptr.toNat) :
    motionBlock n i x = .raised .truncated x := by
  rw [motionBlock, nextByte_truncated hlen, andThen_raised]

theorem vqBlock_truncated (n i : Nat) (cb : List Tile) (hlen : x.cLen.toNat ≤ x.pptr.toNat) :
    vqBlock n i cb x = .raised .truncated x := by
  rw [vqBlock, nextByte_truncated hlen, andThen_raised]

/-! ## VQ8 and VQ4 with a bad code (R188, R192) -/

theorem tileLookup_bad {m : BitVec 9} (hk : m.toNat ≤ b.toNat) (x : Session) (cb : List Tile) :
    tileLookup x cb m b = .raised .indexOutOfRange x := by
  rw [tileLookup, if_pos hk]

theorem vqBlock_bad (n i : Nat) (cb : List Tile) (hlt : x.pptr.toNat < x.cLen.toNat)
    (hb : x.payload[x.pptr.toNat]? = some b) (hk : x.n4.toNat ≤ b.toNat) :
    vqBlock n i cb x = .raised .indexOutOfRange { x with pptr := BitVec.ofNat 17 (x.pptr.toNat + 1) } := by
  rw [vqBlock, nextByte_ok hlt hb, andThen_ok, tileLookup_bad hk, andThen_raised]

/-! ## MOT8 and MOT4 (R187, R191, R194) -/

/-- With its operand, its node and its displacement there, a motion opcode is the motion copy. -/
theorem motionBlock_eq (n : Nat) (hlt : x.pptr.toNat < x.cLen.toNat) (hb : x.payload[x.pptr.toNat]? = some b)
    (he : x.addrTable[i]? = some (col, row)) (hm : x.mcomp[b.toNat]? = some (mx, my)) :
    motionBlock n i x = motionFrom { x with pptr := BitVec.ofNat 17 (x.pptr.toNat + 1) } n col row (mx, my) := by
  simp only [motionBlock, nextByte_ok hlt hb, tableEntry, motionLookup, he, hm, andThen_ok]

/-- A source block that is not inside the W x H area is an error, and nothing is drawn. -/
theorem motionBlock_outside (hlt : x.pptr.toNat < x.cLen.toNat) (hb : x.payload[x.pptr.toNat]? = some b)
    (he : x.addrTable[i]? = some (col, row)) (hm : x.mcomp[b.toNat]? = some (mx, my))
    (hout : col + mx < 0 ∨ (x.w.toNat : Int) < col + mx + n ∨ row + my < 0 ∨ (x.h.toNat : Int) < row + my + n) :
    motionBlock n i x = .raised .indexOutOfRange { x with pptr := BitVec.ofNat 17 (x.pptr.toNat + 1) } := by
  rw [motionBlock_eq n hlt hb he hm]
  exact if_pos hout

@[simp] theorem drawn_bank_other (f : Surface) : (x.drawn f n).bank x.wr.other = x.bank x.wr.other := by
  have hbank : ∀ c, (x.drawn f n).bank c = (x.setBank x.wr f).bank c := fun c => by cases c <;> rfl
  rw [hbank, bank_setBank_other]

/-- A source block inside the W x H area is copied from the reference bank. -/
theorem motionBlock_ok {sx sy : Nat} (hlt : x.pptr.toNat < x.cLen.toNat) (hb : x.payload[x.pptr.toNat]? = some b)
    (he : x.addrTable[i]? = some (col, row)) (hm : x.mcomp[b.toNat]? = some (mx, my)) (hsx : (sx : Int) = col + mx)
    (hsy : (sy : Int) = row + my) (hsc : sx + n ≤ x.w.toNat) (hsr : sy + n ≤ x.h.toNat) (hc : col + n ≤ x.w.toNat)
    (hr : row + n ≤ x.h.toNat) :
    ∃ f : Surface, motionBlock n i x = .ok (x.drawn f (x.pptr.toNat + 1)) ∧
      f.Wrote x n col row fun r c i => (x.bank x.wr.other).read (pixelOff x (sx + c) (sy + r) + i) := by
  have hself : ({ x with pptr := BitVec.ofNat 17 (x.pptr.toNat + 1) } : Session) =
      x.drawn (x.bank x.wr) (x.pptr.toNat + 1) := by rw [Session.drawn, setBank_bank]
  obtain ⟨f, hf, hwrote⟩ := storeBlock_drawn (g := x.bank x.wr) (m := x.pptr.toNat + 1) hc hr
    fun r c i => (x.bank x.wr.other).read (pixelOff x (sx + c) (sy + r) + i)
  obtain ⟨hin, hother⟩ := hwrote.of_drawn
  refine ⟨f, ?_, hin, hother⟩
  rw [motionBlock_eq n hlt hb he hm, hself]
  rcases motionFrom_cases (x.drawn (x.bank x.wr) (x.pptr.toNat + 1)) n col row (mx, my) with
    ⟨hout, -⟩ | ⟨sx', sy', hsx', hsy', -, -, hcopy⟩
  · simp only [drawn_w, drawn_h] at hout
    omega
  · obtain rfl : sx = sx' := by omega
    obtain rfl : sy = sy' := by omega
    simp only [hcopy, drawn_wr, drawn_bank_other, drawn_pixelOff, hf]

end Operand

/-- Settles O24: the block MOT8 copies, at the node. -/
theorem mot8CopiesTheBlock : Obligations.Mot8CopiesTheBlock := by
  unfold Obligations.Mot8CopiesTheBlock
  intro s h x b col row sx sy mx my hp hx hlt hb he hm hsx hsy hsc hsr hc hr
  obtain ⟨f, hf, hwrote⟩ := motionBlock_ok (n := 8) hlt hb he hm hsx hsy hsc hsr hc hr
  exact ⟨f, atNode_eq_nodeDone hp hx hf, hwrote⟩

/-- Settles O25: the block MOT4 copies, at the child. -/
theorem mot4CopiesTheBlock : Obligations.Mot4CopiesTheBlock := by
  unfold Obligations.Mot4CopiesTheBlock
  intro s h j x b col row sx sy mx my hp hx hlt hb he hm hsx hsy hsc hsr hc hr
  obtain ⟨f, hf, hwrote⟩ := motionBlock_ok (n := 4) hlt hb he hm hsx hsy hsc hsr hc hr
  exact ⟨f, atChild_eq_childDone hp hx hf, hwrote⟩

/-- Settles O26: the motion byte is asked for first, and the source block is held against the frame before any pixel is
copied. -/
theorem motionErrors : Obligations.MotionErrors := by
  unfold Obligations.MotionErrors
  refine ⟨fun s h x hp hx => ⟨fun hlen => ?_, fun b col row mx my hlt hb he hm hout => ?_⟩,
    fun s h j x hp hx => ⟨fun hlen => ?_, fun b col row mx my hlt hb he hm hout => ?_⟩⟩
  · exact atNode_traps hp hx (motionBlock_truncated 8 _ hlen)
  · exact Traps.of_pptr (atNode_traps hp hx (motionBlock_outside (n := 8) hlt hb he hm hout))
  · exact atChild_traps hp hx (motionBlock_truncated 4 _ hlen)
  · exact Traps.of_pptr (atChild_traps hp hx (motionBlock_outside (n := 4) hlt hb he hm hout))

/-- Settles O29: the tile code is asked for first, and held against N4 before any pixel is drawn. -/
theorem tileCodeErrors : Obligations.TileCodeErrors := by
  unfold Obligations.TileCodeErrors
  refine ⟨fun s h x hp hx => ⟨fun hlen => ?_, fun k hlt hb hk => ?_⟩,
    fun s h j x hp hx => ⟨fun hlen => ?_, fun k hlt hb hk => ?_⟩⟩
  · exact atNode_traps hp hx (vqBlock_truncated 8 _ _ hlen)
  · exact Traps.of_pptr (atNode_traps hp hx (vqBlock_bad 8 _ _ hlt hb hk))
  · exact atChild_traps hp hx (vqBlock_truncated 4 _ _ hlen)
  · exact Traps.of_pptr (atChild_traps hp hx (vqBlock_bad 4 _ _ hlt hb hk))

/-! ## QUAD2 up to its first bad operand (R193) -/

theorem andThen_assoc {α β γ : Type} (r : Res α) (k : α → Res β) (l : β → Res γ) :
    (r.andThen k).andThen l = r.andThen fun a => (k a).andThen l := by
  cases r <;> rfl

/-- The first `m` quadrants of QUAD2 at (col, row). -/
def quadRun (col row : Nat) : Nat → Session → Res Session
  | 0, x => .ok x
  | m + 1, x => (quadRun col row m x).andThen (quadBlock (col + 2 * (m % 2)) (row + 2 * (m / 2)))

/-- QUAD2 is its four quadrants. -/
theorem quadBlocks_eq_quadRun {x : Session} {i col row : Nat} (he : x.addrTable[i]? = some (col, row)) :
    quadBlocks i x = quadRun col row 4 x := by
  simp only [quadBlocks, tableEntry, he, quadRun, andThen_ok, andThen_assoc]
  rfl

/-- An error ends the run: the quadrants after it are not drawn. -/
theorem quadRun_raised {x y : Session} {col row m n : Nat} {code : ErrCode}
    (hm : quadRun col row m x = .raised code y) (hmn : m ≤ n) : quadRun col row n x = .raised code y := by
  induction n, hmn using Nat.le_induction with
  | base => exact hm
  | succ n _ ih => rw [quadRun, ih, andThen_raised]

/-- With their operands there the first `m` quadrants are drawn. -/
theorem quadRun_ok {x : Session} {ks : Nat → Byte} {ts : Nat → Tile} {col row m : Nat}
    (hlen : x.cLen.toNat ≤ Config.maxChunk) (hfit : x.pptr.toNat + m ≤ x.cLen.toNat) (hm : m ≤ 4)
    (ho : ∀ q < m, x.QuadOperand ks ts q) (hc : col + 4 ≤ x.w.toNat) (hr : row + 4 ≤ x.h.toNat) :
    ∃ f : Surface, quadRun col row m x = .ok (x.drawn f (x.pptr.toNat + m)) ∧ f.WroteQuads x col row m ts := by
  induction m with
  | zero => exact ⟨x.bank x.wr, by rw [Nat.add_zero, drawn_self]; rfl, wroteQuads_zero x col row ts⟩
  | succ m ih =>
    obtain ⟨g, hg, hquads⟩ := ih (by omega) (by omega) fun q hq => ho q (Nat.lt_succ_of_lt hq)
    obtain ⟨f, hf, hnext⟩ := quadBlock_ok hlen (by omega) (ho m (Nat.lt_succ_self m)) (by omega) hc hr hquads
    exact ⟨f, by rw [quadRun, hg, andThen_ok, hf], hnext⟩

/-- The error of a quadrant whose code is missing, or at or above N2; its tile is not drawn. -/
theorem quadBlock_raised {x : Session} {g : Surface} {k : Byte} {m : Nat} (hlen : x.cLen.toNat ≤ Config.maxChunk)
    (hbad : x.cLen.toNat = m ∨ (m < x.cLen.toNat ∧ x.payload[m]? = some k ∧ x.n2.toNat ≤ k.toNat)) (col row : Nat) :
    ∃ n, quadBlock col row (x.drawn g m) =
      .raised (if x.cLen.toNat = m then .truncated else .indexOutOfRange) (x.drawn g n) := by
  rcases hbad with rfl | ⟨hlt, hb, hk⟩
  case inl =>
    have hpptr : (x.drawn g x.cLen.toNat).pptr.toNat = x.cLen.toNat := pptr_toNat le_rfl hlen
    refine ⟨x.cLen.toNat, ?_⟩
    rw [quadBlock, nextByte_truncated (by rw [hpptr, drawn_cLen]), andThen_raised, if_pos rfl]
  case inr =>
    refine ⟨m + 1, ?_⟩
    rw [quadBlock, nextByte_drawn hlen hlt hb, andThen_ok, drawn_n2, tileLookup_bad hk, andThen_raised,
      if_neg (Nat.ne_of_gt hlt)]

/-- Settles O31: the quadrants before the bad operand are drawn, and its error ends the run. -/
theorem quad2Errors : Obligations.Quad2Errors := by
  unfold Obligations.Quad2Errors
  intro s h j x ks ts col row m hp hx hlen hm hfit ho he hc hr hbad
  obtain ⟨f, hf, hquads⟩ := quadRun_ok hlen hfit hm.le ho hc hr
  obtain ⟨n, hraise⟩ := quadBlock_raised (g := f) hlen hbad (col + 2 * (m % 2)) (row + 2 * (m / 2))
  have hrun : quadRun col row (m + 1) x =
      quadBlock (col + 2 * (m % 2)) (row + 2 * (m / 2)) (x.drawn f (x.pptr.toNat + m)) := by
    rw [quadRun, hf, andThen_ok]
  have hquad2 := (quadBlocks_eq_quadRun he).trans (quadRun_raised (hrun.trans hraise) hm)
  exact ⟨f, Traps.of_pptr (atChild_traps hp hx hquad2), hquads.inside, hquads.outside⟩

/-! ## Frame completion (R196) -/

/-- Frame completion changes the banks and the registers R196 names. -/
theorem frameComplete_eq (x : Session) :
    frameComplete x =
      { x with
        fb0 := (frameComplete x).fb0
        fb1 := (frameComplete x).fb1
        first := false
        disp := x.wr
        frW := x.w
        frH := x.h
        hasFrame := true
        wr := x.wr.other
        decoded := BitVec.ofNat 64 (x.decoded.toNat + 1) } := by
  cases hfirst : x.first with
  | false => simp only [frameComplete, hfirst, Bool.false_eq_true, if_false]
  | true => cases hwr : x.wr <;> simp only [frameComplete, hfirst, hwr, if_true] <;> rfl

/-- Settles O32: the bytes of the two banks are those of `frameComplete_banks`, and the chunk is done. -/
theorem frameCompletion : Obligations.FrameCompletion := by
  unfold Obligations.FrameCompletion
  intro s h x src hp hq hx hs hleaf
  obtain ⟨hwriting, hreference⟩ := frameComplete_banks x
  obtain ⟨u, k, hdone⟩ := endChunk_eq_chunkDone s h (frameComplete_frame x).2.2.1
  refine ⟨(frameComplete x).fb0, (frameComplete x).fb1, u, k, ?step, fun a => ?writing, fun a => ?reference⟩
  case step => rw [step_frameComplete hq hx hs hp hleaf, hdone, ← frameComplete_eq]
  case writing =>
    rw [← hwriting]
    cases x.wr <;> rfl
  case reference =>
    have hbank : (if x.wr = .bank0 then (frameComplete x).fb1 else (frameComplete x).fb0) =
        (frameComplete x).bank x.wr.other := by cases x.wr <;> rfl
    rw [hbank, hreference]
    cases hfirst : x.first with
    | false => simp
    | true => simp [Surface.read_copyArea, Session.area, Session.line]

end Sys2Proof.Machine
end

section
/-! The scheduler's commands and its catch-up loop, case by case (44_scheduler R221 to R234). -/

namespace Sys2Proof.Machine

/-- A command that ends at once leaves an idle machine where it stands. -/
theorem answer_of_idle {s : State} (hp : s.phase = .idle) (r : Result) : s.answer r = { s with result := some r } := by
  rw [State.answer, ← hp]

/-! ## START without a session (R221 (1), (2)) -/

/-- With a free slot START has one to take. -/
theorem exists_findIdx?_free {l : List Session} (hfree : ∃ z ∈ l, z.inUse = false) :
    ∃ i, l.findIdx? (fun slot => !slot.inUse) = some i := by
  obtain ⟨z, hz, hu⟩ := hfree
  exact Option.isSome_iff_exists.mp (by rw [List.findIdx?_isSome, List.any_eq_true]; exact ⟨z, hz, by simp [hu]⟩)

section Start

variable {s : State} {srcId : Nat} (hp : s.phase = .idle) (x y w h : BitVec 32) (flags : BitVec 4) (now : BitVec 48)

include hp

theorem exec_start_noSlot (hfull : ∀ z ∈ s.slots, z.inUse = true) :
    exec (.start srcId x y w h flags now) s = .next (s.answer (.error .noSlot)) := by
  have hslot : s.slots.findIdx? (fun slot => !slot.inUse) = none := by simpa [List.findIdx?_eq_none_iff] using hfull
  simp only [exec, execStart, if_pos hp, hslot]

theorem exec_start_notFound (hfree : ∃ z ∈ s.slots, z.inUse = false) (ho : srcOpen s srcId = none) :
    exec (.start srcId x y w h flags now) s = .next (s.answer (.error .notFound)) := by
  obtain ⟨i, hslot⟩ := exists_findIdx?_free hfree
  simp only [exec, execStart, if_pos hp, hslot, ho]

theorem exec_start_zeroLength {src : Source} (hfree : ∃ z ∈ s.slots, z.inUse = false)
    (ho : srcOpen s srcId = some src) (hlen : src.len = 0) :
    exec (.start srcId x y w h flags now) s = .next (s.answer (.error .zeroLength)) := by
  obtain ⟨i, hslot⟩ := exists_findIdx?_free hfree
  simp only [exec, execStart, if_pos hp, hslot, ho, if_pos hlen]

end Start

theorem srcOpen_eq_none {s : State} {id : Nat} (hid : ∀ src ∈ s.sources, src.id ≠ id) : srcOpen s id = none :=
  List.find?_eq_none.mpr fun src hsrc => by simp [hid src hsrc]

/-- Settles O39: the three checks of START in their order, each of which answers an idle machine. -/
theorem startErrors : Obligations.StartErrors := by
  unfold Obligations.StartErrors
  intro s srcId x y w h flags now hp
  simp only [← answer_of_idle hp]
  exact ⟨exec_start_noSlot hp x y w h flags now,
    fun hfree hid => exec_start_notFound hp x y w h flags now hfree (srcOpen_eq_none hid),
    fun src hfree ho hlen => exec_start_zeroLength hp x y w h flags now hfree ho hlen⟩

/-! ## The commands on an invalid handle (R234) -/

theorem session?_eq_none {s : State} {h : Nat} (hlen : s.slots.length = s.cfg.nSess)
    (hbad : s.cfg.nSess ≤ h ∨ ∃ x, s.slots[h]? = some x ∧ x.inUse = false) : session? s h = none := by
  rcases hbad with hbeyond | ⟨x, hx, hfree⟩
  · simp [session?, List.getElem?_eq_none (hlen.trans_le hbeyond)]
  · simp [session?, hx, hfree]

/-- Settles O46: none of the four commands finds a session, and each answers. -/
theorem invalidHandles : Obligations.InvalidHandles := by
  unfold Obligations.InvalidHandles
  intro s h now hp hlen hbad
  have hnone := session?_eq_none hlen hbad
  simp only [← answer_of_idle hp, exec, execTick, execStop, execResume, execGetframe, if_pos hp, hnone, and_self]

/-! ## The commands on a session -/

section OnSession

variable {s : State} {h : Nat} {x : Session} {src : Source} (hp : s.phase = .idle) (hx : s.slots[h]? = some x)
  (hu : x.inUse = true)

include hp hx hu

/-- STOP frees its slot, whatever its source (R228). -/
theorem exec_stop_eq :
    exec (.stop h) s =
      .next
        { ((s.setSlot h (releasedSession s.freeCount)).expireRefs h).answer (.status .endOfStream) with
          freeCount := s.freeCount + 2 } := by
  simp only [exec, execStop, if_pos hp, session?_of_inUse hx hu]

variable (hs : sourceOf s x = some src)

include hs

/-- TICK in Play or Looped goes to the head of the catch-up loop (R222, R227). -/
theorem exec_tick_wakes (hst : x.status = .play ∨ x.status = .looped) (now : BitVec 48) :
    exec (.tick h now) s =
      .next { (s.setSlot h (wakeSession now x)).expireRefs h with phase := .loop h, result := none } := by
  have hawake : ¬ (x.status = .endOfStream ∨ x.status = .idle) := by rcases hst with hst | hst <;> simp [hst]
  simp only [exec, execTick, if_pos hp, session?_of_inUse hx hu, onSession_ok hs, if_neg hawake]

/-- TICK in EndOfStream or Idle returns STATUS (R222). -/
theorem exec_tick_returns (hst : x.status = .endOfStream ∨ x.status = .idle) (now : BitVec 48) :
    exec (.tick h now) s =
      .next (((s.setSlot h { x with nowL := now }).expireRefs h).answer (.status x.status)) := by
  simp only [exec, execTick, if_pos hp, session?_of_inUse hx hu, onSession_ok hs, if_pos hst]

theorem exec_getframe_eq :
    exec (.getframe h) s = .next (s.answer (if x.hasFrame then .frame (frameRef s h x) else .noFrame)) := by
  simp only [exec, execGetframe, if_pos hp, session?_of_inUse hx hu, onSession_ok hs]

theorem exec_resume_eq :
    exec (.resume h) s = .next ((s.setSlot h (resumed x)).answer (.status (resumed x).status)) := by
  simp only [exec, execResume, if_pos hp, session?_of_inUse hx hu, onSession_ok hs]

end OnSession

/-- Settles O40: the loop begins with the session of `wakeSession`, or the answer is STATUS. -/
theorem tickOnASession : Obligations.TickOnASession := by
  unfold Obligations.TickOnASession
  intro s h x src now hp hx hu hs
  refine ⟨fun hst => exec_tick_wakes hp hx hu hs hst now, fun hst => ?_⟩
  rw [exec_tick_returns hp hx hu hs hst, answer_of_idle (by exact hp)]
  rfl

/-- Settles O43: the slot holds `releasedSession`. -/
theorem stopFreesTheSlot : Obligations.StopFreesTheSlot := by
  unfold Obligations.StopFreesTheSlot
  intro s h x hp hx hu
  refine ⟨releasedSession s.freeCount, s.freeCount + 2, ?_, rfl, rfl, rfl⟩
  rw [exec_stop_eq hp hx hu, answer_of_idle (by exact hp)]
  rfl

/-- Settles O44: the reference is `frameRef`, and it is good in the state it is handed out in. -/
theorem getframeReturnsTheReference : Obligations.GetframeReturnsTheReference := by
  unfold Obligations.GetframeReturnsTheReference
  intro s h x src hp hx hu hs
  rw [exec_getframe_eq hp hx hu hs, answer_of_idle hp]
  refine ⟨fun hframe => ⟨frameRef s h x, by rw [hframe]; rfl, rfl, fun a => ?_⟩, fun hnone => by rw [hnone]; rfl⟩
  exact frameRef_read (t := { s with result := some (.frame (frameRef s h x)) }) hx a

theorem resumed_of_idle {x : Session} (hst : x.status = .idle) : resumed x = { x with status := .play } := if_pos hst

theorem resumed_of_ne_idle {x : Session} (hst : x.status ≠ .idle) : resumed x = x := if_neg hst

/-- A session stored where it stands changes nothing. -/
theorem setSlot_self {s : State} {h : Nat} {x : Session} (hx : s.slots[h]? = some x) : s.setSlot h x = s := by
  obtain ⟨hlt, rfl⟩ := List.getElem?_eq_some_iff.mp hx
  simp [State.setSlot]

/-- Settles O45: `resumed` wakes a session in Idle and is the identity on any other. -/
theorem resumeWakesIdleOnly : Obligations.ResumeWakesIdleOnly := by
  unfold Obligations.ResumeWakesIdleOnly
  intro s h x src hp hx hu hs
  rw [exec_resume_eq hp hx hu hs, answer_of_idle (by exact hp)]
  refine ⟨fun hidle => by rw [resumed_of_idle hidle]; rfl, fun hother => ?_⟩
  rw [resumed_of_ne_idle hother, setSlot_self hx]

/-! ## The target frame (R223) -/

/-- Settles O41: 48 bits of milliseconds times 16 bits of FPS are below 2^64, so nothing wraps. -/
theorem targetIsExact : Obligations.TargetIsExact := by
  unfold Obligations.TargetIsExact
  intro x t
  have hproduct : (t.toNat - x.startTime.toNat) * x.fps.toNat < 2 ^ 48 * 2 ^ 16 :=
    Nat.mul_lt_mul_of_lt_of_le ((Nat.sub_le _ _).trans_lt t.isLt) x.fps.isLt.le (by decide)
  exact Nat.mod_eq_of_lt ((Nat.div_le_self _ _).trans_lt hproduct)

/-! ## The catch-up loop (R224, R225) and its restart (R226) -/

section LoopHead

variable {s : State} {h : Nat} {x : Session}

/-- At the head of the catch-up loop a step is `loopHead`. -/
theorem step_loop {src : Source} (hq : s.port = none) (hx : s.slots[h]? = some x) (hs : sourceOf s x = some src)
    (hp : s.phase = .loop h) : step s = .next (loopHead s h x) :=
  step_of_done (fetch_slot hq hx hs (by rw [fetchPlace, hp]))

theorem loopHead_of_done (hdone : ¬ (x.status = .play ∧ x.decoded.toNat < x.target.toNat)) :
    loopHead s h x = s.answer (.status x.status) := if_neg hdone

/-- While a frame is due the next chunk is fetched, or the data end (R224). -/
theorem loopHead_of_due (hplay : x.status = .play) (hdue : x.decoded.toNat < x.target.toNat) :
    loopHead s h x =
      if x.srcLen.toNat ≤ x.offset.toNat then endOfData s h x else { s with phase := .fetch h } :=
  if_pos ⟨hplay, hdue⟩

/-- With HOLD the end of data leads back to the loop head with STATUS Idle (R225). -/
theorem endOfData_of_hold (hp : s.phase = .loop h) (hhold : x.holdFlag = true) :
    endOfData s h x = s.setSlot h { x with status := .idle } := by
  rw [endOfData, if_pos hhold, ← hp]
  rfl

theorem endOfData_of_loop (hhold : x.holdFlag = false) (hloop : x.loopFlag = true) :
    endOfData s h x = { s with phase := .header h true } := by
  rw [endOfData, hhold, hloop]
  rfl

/-- Without HOLD and LOOP the session ends (R225). -/
theorem endOfData_of_neither (hp : s.phase = .loop h) (hhold : x.holdFlag = false) (hloop : x.loopFlag = false) :
    endOfData s h x =
      { s.setSlot h
          { x with
            status := .endOfStream
            hasFrame := false
            fb0 := .unwritten s.freeCount
            fb1 := .unwritten (s.freeCount + 1) } with
        freeCount := s.freeCount + 2 } := by
  rw [endOfData, hhold, hloop, ← hp]
  rfl

end LoopHead

/-- Settles O42: the branches of `loopHead`, and of `endOfData` where the data end. -/
theorem catchUpLoopHead : Obligations.CatchUpLoopHead := by
  unfold Obligations.CatchUpLoopHead
  intro s h x src hp hq hx hs
  rw [step_loop hq hx hs hp]
  refine ⟨fun hdone => by rw [loopHead_of_done hdone]; rfl, fun hplay hdue => ?_⟩
  rw [loopHead_of_due hplay hdue]
  refine ⟨fun hmore => by rw [if_neg (Nat.not_le.mpr hmore)], fun hend hhold => ?_, fun hend hhold hloop => ?_,
    fun hend hhold hloop => ⟨.unwritten s.freeCount, .unwritten (s.freeCount + 1), s.freeCount + 2, ?_⟩⟩
  · rw [if_pos hend, endOfData_of_hold hp hhold]; rfl
  · rw [if_pos hend, endOfData_of_loop hhold hloop]
  · rw [if_pos hend, endOfData_of_neither hp hhold hloop]; rfl

/-- Settles O8: both checks of the parse succeed, and `restartRegs` resets what R226 names. -/
theorem loopRestart : Obligations.LoopRestart := by
  unfold Obligations.LoopRestart
  intro s h x unused fps hp hx hlen
  refine ⟨(Config.unspecifiedSession s.freeCount).cb2, (Config.unspecifiedSession s.freeCount).cb4,
    (Config.unspecifiedSession s.freeCount).cb8, s.freeCount + 1, ?_⟩
  simp only [exec, execFilehdr, hp, hx, parseHeader_ok hlen]
  rfl

end Sys2Proof.Machine
end

section
/-! The run of a command, step by step: all a step inside a command can do to the phase and to the registers the scheduler
reads (44_scheduler R222 to R226). -/

namespace Sys2Proof.Machine

/-! ## The registers the scheduler reads -/

/-- The registers the catch-up loop decides by (44_scheduler R222 to R226). -/
structure Schedule where
  status : Status
  srcLen : BitVec 32
  offset : BitVec 32
  fps : BitVec 16
  startTime : BitVec 48
  nowL : BitVec 48
  decoded : BitVec 64
  target : BitVec 64

def Session.schedule (x : Session) : Schedule :=
  ⟨x.status, x.srcLen, x.offset, x.fps, x.startTime, x.nowL, x.decoded, x.target⟩

/-- The target frame of the latest `now` (44_scheduler R223). -/
def Schedule.targetNow (c : Schedule) : BitVec 64 :=
  BitVec.ofNat 64 ((c.nowL.toNat - c.startTime.toNat) * c.fps.toNat / 1000)

theorem targetOf_nowL (x : Session) : targetOf x x.nowL = x.schedule.targetNow := rfl

/-- What the scheduler reads in the middle of a chunk, with how far a VIDEO chunk has come. -/
def Session.progress (x : Session) : Schedule × Nat × Nat := (x.schedule, x.leaf, x.atN)

theorem Session.schedule_of_progress {x y : Session} (h : y.progress = x.progress) : y.schedule = x.schedule :=
  congrArg Prod.fst h

@[simp] theorem progress_setBank (x : Session) (b : BankId) (f : Surface) : (x.setBank b f).progress = x.progress := by
  cases b <;> rfl

/-- `y` has the schedule `c`, but for OFFSET, which the header parse rewinds. -/
def Session.KeepsSchedule (c : Schedule) (y : Session) : Prop := y.schedule = { c with offset := y.offset }

theorem Session.keepsSchedule_of_eq {c : Schedule} {y : Session} (h : y.schedule = c) : y.KeepsSchedule c := by
  subst h; rfl

/-- The frames a chunk counts and the target it sets, from those before it: only an INFO sets TARGET, and only a VIDEO chunk
counts, a frame that was due. -/
def Schedule.Counts (c : Schedule) (decoded target : BitVec 64) : Prop :=
  (decoded = c.decoded ∧ (target = c.target ∨ target = c.targetNow)) ∨
    (c.decoded.toNat < c.target.toNat ∧ decoded.toNat = c.decoded.toNat + 1 ∧ target = c.target)

/-- `z` is a session of schedule `c` when its chunk, which lies inside the source, is done and has not advanced. -/
structure Session.Finished (c : Schedule) (z : Session) : Prop where
  schedule : z.schedule = { c with decoded := z.decoded, target := z.target }
  counts : c.Counts z.decoded z.target
  fits : z.offset.toNat + Config.chunkHdr + z.cLen.toNat ≤ z.srcLen.toNat

/-- A chunk that neither counts a frame nor sets TARGET. -/
theorem Session.finished_of_eq {c : Schedule} {z : Session} (hz : z.schedule = c)
    (hfits : z.offset.toNat + Config.chunkHdr + z.cLen.toNat ≤ z.srcLen.toNat) : z.Finished c := by
  subst hz; exact ⟨rfl, .inl ⟨rfl, .inl rfl⟩, hfits⟩

/-! ## A step inside a command -/

/-- The phases inside a VIDEO or audio chunk of slot `h`. -/
def Phase.InsideChunk (h : Nat) : Phase → Prop
  | .video k _ => k = h
  | .audio k _ => k = h
  | _ => False

/-- How many opcodes or bytes the chunk in progress has left at most: five opcodes for each node, and the completion. -/
def Phase.work : Phase → Session → Nat
  | .video _ .node, x => 5 * (x.atN - x.leaf) + 4
  | .video _ (.child j), x => 5 * (x.atN - x.leaf) + (3 - j.val)
  | .audio _ stereo, x => deltaCount stereo x - x.audioPos
  | _, _ => 0

/-- All a step inside a command on slot `h`, with `x` in it, can do to the phase and to the schedule of the slot. -/
inductive Advances (h : Nat) (x : Session) : Phase → Phase → Session → Prop
  /-- an error ends the command (60_exceptions R290) -/
  | trapped {p : Phase} {z : Session} (k : Nat) (e : ErrCode) (hz : z.KeepsSchedule x.schedule) :
      Advances h x p .idle (retireChunk k (trapEntry e z))
  /-- START's header parse ends it (44_scheduler R221) -/
  | parsed {y : Session} (hy : y.decoded = x.decoded) : Advances h x (.header h false) .idle y
  /-- a loop restart (R226) -/
  | restarted (k : Nat) (z : Session) : Advances h x (.header h true) (.loop h) (restartRegs k z)
  /-- TICK returns (R222) -/
  | returned : Advances h x (.loop h) .idle x
  /-- a chunk is due (R224) -/
  | due (hplay : x.status = .play) : Advances h x (.loop h) (.fetch h) x
  /-- the data end in a session with LOOP (R225) -/
  | rewound (hplay : x.status = .play) : Advances h x (.loop h) (.header h true) x
  /-- the data end in another session (R225) -/
  | ended {y : Session} (hplay : x.status = .play) (hy : y.schedule = { x.schedule with status := y.status })
      (hst : y.status ≠ .play) : Advances h x (.loop h) (.loop h) y
  /-- a VIDEO or audio chunk is fetched (43_quadtree_video R183, 45_audio R261) -/
  | opened {q : Phase} {y : Session} (hq : q.InsideChunk h) (hy : y.schedule = x.schedule) : Advances h x (.fetch h) q y
  /-- an opcode or an audio byte is done -/
  | worked {p q : Phase} {y : Session} (hp : p.InsideChunk h) (hq : q.InsideChunk h) (hy : y.schedule = x.schedule)
      (hwork : q.work y < p.work x) : Advances h x p q y
  /-- a chunk is done and advances (40_chunk_reader R132) -/
  | advanced {p : Phase} {z : Session} (k : Nat) (hp : p = .fetch h ∨ p.InsideChunk h) (hz : z.Finished x.schedule) :
      Advances h x p (.loop h) (retireChunk k (advance z))

/-- If the outcome is a next state, slot `h` and the phase have moved on from `x` and `p` as `Advances` says. -/
def Moves (h : Nat) (x : Session) (p : Phase) (o : Host.Outcome State Fault Refusal) : Prop :=
  ∀ t, o = .next t → ∃ y, t.slots[h]? = some y ∧ Advances h x p t.phase y

/-- If an operation goes on, its value meets `P`; if it raises an error, the session at the raise meets `Q`. -/
def Res.Upholds {α : Type} (P : α → Prop) (Q : Session → Prop) : Res α → Prop
  | .ok a => P a
  | .raised _ y => Q y
  | .stuck _ => True

theorem Res.Upholds.andThen {α β : Type} {P : α → Prop} {P' : β → Prop} {Q : Session → Prop} {r : Res α}
    {k : α → Res β} (hr : r.Upholds P Q) (hk : ∀ a, P a → (k a).Upholds P' Q) : (r.andThen k).Upholds P' Q := by
  cases r with
  | ok a => exact hk a hr
  | raised e y => exact hr
  | stuck f => trivial

theorem Res.Upholds.mono {α : Type} {P P' : α → Prop} {Q Q' : Session → Prop} {r : Res α} (hr : r.Upholds P Q)
    (hP : ∀ a, P a → P' a) (hQ : ∀ y, Q y → Q' y) : r.Upholds P' Q' := by
  cases r with
  | ok a => exact hP a hr
  | raised e y => exact hQ y hr
  | stuck f => trivial

section Moves

variable {s : State} {h : Nat} {x : Session} {p : Phase}

theorem moves_next {t : State} {y : Session} (hy : t.slots[h]? = some y) (hm : Advances h x p t.phase y) :
    Moves h x p (.next t) := fun _ ht => Host.Outcome.next.inj ht ▸ ⟨y, hy, hm⟩

theorem moves_fault (f : Fault) : Moves h x p (.fault f) := fun _ ht => by cases ht

theorem moves_refused (r : Refusal) : Moves h x p (.refused r) := fun _ ht => by cases ht

theorem raiseFatal_moves (hlt : h < s.slots.length) {z : Session} (hz : z.KeepsSchedule x.schedule) (e : ErrCode) :
    Moves h x p (.next (raiseFatal s h e z)) :=
  moves_next (slots_setSlot_self s h _ hlt) (.trapped s.freeCount e hz)

theorem commit_moves {q : Phase} {r : Res Session} (hlt : h < s.slots.length)
    (hr : r.Upholds (Advances h x p q) (·.KeepsSchedule x.schedule)) : Moves h x p (commit s h q r) := by
  cases r with
  | ok y => exact moves_next (slots_setSlot_self s h y hlt) hr
  | raised e z => exact raiseFatal_moves hlt hr e
  | stuck f => exact moves_fault f

theorem endChunk_moves {r : Res Session} (hlt : h < s.slots.length) (hp : p = .fetch h ∨ p.InsideChunk h)
    (hr : r.Upholds (·.Finished x.schedule) (·.KeepsSchedule x.schedule)) : Moves h x p (endChunk s h r) := by
  cases r with
  | ok z => exact moves_next (slots_setSlot_self s h _ hlt) (.advanced s.freeCount hp hr)
  | raised e z => exact raiseFatal_moves hlt hr e
  | stuck f => exact moves_fault f

end Moves

/-! ## The video opcodes -/

theorem tableEntry_upholds (x : Session) (Q : Session → Prop) (i : Nat) :
    (tableEntry x i).Upholds (fun _ => True) Q := by
  rcases tableEntry_cases x i with ⟨e, -, h⟩ | ⟨-, h⟩ <;> rw [h] <;> trivial

theorem motionLookup_upholds (x : Session) (Q : Session → Prop) (b : Byte) :
    (motionLookup x b).Upholds (fun _ => True) Q := by
  rcases motionLookup_cases x b with ⟨m, -, h⟩ | ⟨-, h⟩ <;> rw [h] <;> trivial

section Opcodes

variable {x : Session} {c : Schedule × Nat × Nat} (hx : x.progress = c)

include hx

theorem nextOpcode_upholds : (nextOpcode x).Upholds (·.2.progress = c) (·.progress = c) := by
  rcases nextOpcode_cases x with ⟨-, h⟩ | ⟨-, -, h⟩ | ⟨-, -, ⟨b0, b1, -, -, h⟩ | ⟨-, h⟩⟩ <;> rw [h]
  · exact hx
  · exact hx
  · exact hx
  · trivial

theorem nextByte_upholds : (nextByte x).Upholds (·.2.progress = c) (·.progress = c) := by
  rcases nextByte_cases x with ⟨-, h⟩ | ⟨-, ⟨b, -, h⟩ | ⟨-, h⟩⟩ <;> rw [h]
  · exact hx
  · exact hx
  · trivial

theorem tileLookup_upholds (cb : List Tile) (n : BitVec 9) (k : Byte) :
    (tileLookup x cb n k).Upholds (fun _ => True) (·.progress = c) := by
  rcases tileLookup_cases x cb n k with ⟨-, h⟩ | ⟨-, ⟨t, -, h⟩ | ⟨-, h⟩⟩ <;> rw [h]
  · exact hx
  · trivial
  · trivial

theorem storeBlock_upholds (n col row : Nat) (byte : Nat → Nat → Nat → Byte) :
    (storeBlock x n col row byte).Upholds (·.progress = c) (·.progress = c) := by
  rcases storeBlock_cases x n col row byte with ⟨-, h⟩ | ⟨-, -, f, h, -⟩ <;> rw [h]
  · trivial
  · exact (progress_setBank x x.wr f).trans hx

theorem motionFrom_upholds (n col row : Nat) (m : Int × Int) :
    (motionFrom x n col row m).Upholds (·.progress = c) (·.progress = c) := by
  rcases motionFrom_cases x n col row m with ⟨-, h⟩ | ⟨sx, sy, -, -, -, -, h⟩ <;> rw [h]
  · exact hx
  · exact storeBlock_upholds hx n col row _

theorem motionBlock_upholds (n i : Nat) : (motionBlock n i x).Upholds (·.progress = c) (·.progress = c) :=
  (nextByte_upholds hx).andThen fun bx hbx =>
    (tableEntry_upholds bx.2 _ i).andThen fun e _ =>
      (motionLookup_upholds bx.2 _ bx.1).andThen fun m _ => motionFrom_upholds hbx n e.1 e.2 m

theorem vqBlock_upholds (n i : Nat) (cb : List Tile) :
    (vqBlock n i cb x).Upholds (·.progress = c) (·.progress = c) :=
  (nextByte_upholds hx).andThen fun kx hkx =>
    (tileLookup_upholds hkx cb x.n4 kx.1).andThen fun _ _ =>
      (tableEntry_upholds kx.2 _ i).andThen fun e _ => storeBlock_upholds hkx n e.1 e.2 _

theorem quadBlock_upholds (col row : Nat) : (quadBlock col row x).Upholds (·.progress = c) (·.progress = c) :=
  (nextByte_upholds hx).andThen fun kx hkx =>
    (tileLookup_upholds hkx x.cb2 x.n2 kx.1).andThen fun _ _ => storeBlock_upholds hkx 2 col row _

theorem quadBlocks_upholds (i : Nat) : (quadBlocks i x).Upholds (·.progress = c) (·.progress = c) :=
  (tableEntry_upholds x _ i).andThen fun e _ =>
    (quadBlock_upholds hx e.1 e.2).andThen fun _ h1 =>
      (quadBlock_upholds h1 (e.1 + 2) e.2).andThen fun _ h2 =>
        (quadBlock_upholds h2 e.1 (e.2 + 2)).andThen fun _ h3 => quadBlock_upholds h3 (e.1 + 2) (e.2 + 2)

end Opcodes

section Video

variable {s : State} {h : Nat} {x y z : Session}

theorem fields_of_progress (hy : y.progress = x.progress) :
    y.schedule = x.schedule ∧ y.leaf = x.leaf ∧ y.atN = x.atN := by
  simpa [Session.progress] using hy

/-- After the opcode of a node fewer are left. -/
theorem advances_nextLeaf (hy : y.progress = x.progress) (hleaf : x.leaf < x.atN) :
    Advances h x (.video h .node) (.video h .node) (nextLeaf y) := by
  obtain ⟨hsched, hl, hn⟩ := fields_of_progress hy
  refine .worked rfl rfl hsched ?_
  simp only [Phase.work, nextLeaf_leaf, nextLeaf_atN, hl, hn]
  omega

theorem advances_subdivide (hy : y.progress = x.progress) :
    Advances h x (.video h .node) (.video h (.child 0)) y := by
  obtain ⟨hsched, hl, hn⟩ := fields_of_progress hy
  refine .worked rfl rfl hsched ?_
  simp [Phase.work, hl, hn]

/-- After the opcode of a child fewer are left: the next child comes, or the next node. -/
theorem advances_afterChild (hy : y.progress = x.progress) (hleaf : x.leaf < x.atN) (j : Fin 4) :
    Advances h x (.video h (.child j)) (afterChild h j) (leafAfterChild j y) := by
  obtain ⟨hsched, hl, hn⟩ := fields_of_progress hy
  match j with
  | 0 | 1 | 2 =>
    refine .worked rfl rfl hsched ?_
    simp [Phase.work, afterChild, leafAfterChild, hl, hn]
  | 3 =>
    refine .worked rfl rfl hsched ?_
    show 5 * (y.atN - (y.leaf + 1)) + 4 < 5 * (x.atN - x.leaf) + 0
    rw [hl, hn]
    omega

theorem keepsSchedule_of_progress (hy : y.progress = x.progress) : y.KeepsSchedule x.schedule :=
  Session.keepsSchedule_of_eq (Session.schedule_of_progress hy)

theorem atNode_moves {next : Nat → Phase} {k : Session → Res Session} (hz : s.slots[h]? = some z)
    (hp : s.phase = .video h .node)
    (hk : (k z).Upholds (Advances h x (.video h .node) (next h)) (·.progress = x.progress)) :
    Moves h x (.video h .node) (atNode s next k) := by
  simp only [atNode, hp, hz]
  exact commit_moves (slot_lt hz) (hk.mono (fun _ => id) fun _ => keepsSchedule_of_progress)

theorem atChild_moves {j : Fin 4} {k : Fin 4 → Session → Res Session} (hz : s.slots[h]? = some z)
    (hp : s.phase = .video h (.child j)) (hleaf : x.leaf < x.atN)
    (hk : (k j z).Upholds (·.progress = x.progress) (·.progress = x.progress)) :
    Moves h x (.video h (.child j)) (atChild s k) := by
  simp only [atChild, hp, hz]
  have hleft : ((k j z).andThen fun x1 => .ok (leafAfterChild j x1)).Upholds
      (Advances h x (.video h (.child j)) (afterChild h j)) (·.progress = x.progress) :=
    hk.andThen fun y hy => advances_afterChild hy hleaf j
  exact commit_moves (slot_lt hz) (hleft.mono (fun _ => id) fun _ => keepsSchedule_of_progress)

theorem exec_qop8_moves (hz : s.slots[h]? = some z) (hp : s.phase = .video h .node) (hleaf : x.leaf < x.atN)
    (hprog : z.progress = x.progress) (code : BitVec 2) : Moves h x (.video h .node) (exec (decodeQop8 code) s) := by
  have hnext : ∀ {r : Res Session}, r.Upholds (·.progress = x.progress) (·.progress = x.progress) →
      (r.andThen fun x1 => .ok (nextLeaf x1)).Upholds (Advances h x (.video h .node) (.video h .node))
        (·.progress = x.progress) :=
    fun hr => hr.andThen fun _ hy => advances_nextLeaf hy hleaf
  rcases decodeQop8_cases code with hc | hc | hc | hc <;> rw [hc]
  · exact atNode_moves (k := fun x => .ok (nextLeaf x)) hz hp (advances_nextLeaf hprog hleaf)
  · exact atNode_moves hz hp (hnext (motionBlock_upholds hprog 8 _))
  · exact atNode_moves hz hp (hnext (vqBlock_upholds hprog 8 _ _))
  · exact atNode_moves (k := .ok) hz hp (advances_subdivide hprog)

theorem exec_qop4_moves {j : Fin 4} (hz : s.slots[h]? = some z) (hp : s.phase = .video h (.child j))
    (hleaf : x.leaf < x.atN) (hprog : z.progress = x.progress) (code : BitVec 2) :
    Moves h x (.video h (.child j)) (exec (decodeQop4 code) s) := by
  rcases decodeQop4_cases code with hc | hc | hc | hc <;> rw [hc]
  · exact atChild_moves (k := fun _ => .ok) hz hp hleaf hprog
  · exact atChild_moves hz hp hleaf (motionBlock_upholds hprog 4 _)
  · exact atChild_moves hz hp hleaf (vqBlock_upholds hprog 4 _ _)
  · exact atChild_moves hz hp hleaf (quadBlocks_upholds hprog _)

/-- Where an opcode is due it is taken, or the payload is truncated; what it decodes to, `dec` of it, then moves on from the
state with the opcode taken. -/
theorem fetchOpcode_moves {p : Phase} {enc : BitVec 2 → Encoded} {dec : BitVec 2 → Instr} (hx : s.slots[h]? = some x)
    (hf : fetch s = fetchOpcode s h x enc) (hdec : ∀ p code, decode p (enc code) = .ok (dec code))
    (hexec : ∀ (z : Session) (code : BitVec 2), (s.setSlot h z).slots[h]? = some z → z.progress = x.progress →
      Moves h x p (exec (dec code) (s.setSlot h z))) : Moves h x p (step s) := by
  have hn := nextOpcode_upholds (x := x) rfl
  cases ho : nextOpcode x with
  | ok oz =>
    rw [ho] at hn
    rw [step_of_instr (by rw [hf, fetchOpcode, ho]) (hdec _ _)]
    exact hexec oz.2 oz.1 (slots_setSlot_self s h oz.2 (slot_lt hx)) hn
  | raised e z =>
    rw [ho] at hn
    rw [step_of_done (by rw [hf, fetchOpcode, ho])]
    exact raiseFatal_moves (slot_lt hx) (keepsSchedule_of_progress hn) e
  | stuck f => rw [step_of_done (by rw [hf, fetchOpcode, ho])]; exact moves_fault f

/-- A completed frame that was due is counted, without a wrap (43_quadtree_video R196). -/
theorem Session.InChunk.frameComplete_finished (hc : x.InChunk) : (frameComplete x).Finished x.schedule := by
  rw [frameComplete_eq]
  refine ⟨rfl, .inr ⟨hc.due, ?_, rfl⟩, hc.fits⟩
  have hdue : x.decoded.toNat < x.target.toNat := hc.due
  exact Nat.mod_eq_of_lt (by omega)

end Video

/-! ## The chunks -/

section Chunks

variable {s : State} {h : Nat} {x y : Session}

/-- A chunk moves on if its own rule does so from a session with the chunk fetched, which lies inside the source. -/
theorem atChunk_moves {tag : BitVec 16} {hd : ChunkHdr} {k : Nat → Session → Host.Outcome State Fault Refusal}
    (hx : s.slots[h]? = some x) (hp : s.phase = .fetch h)
    (hk : ∀ y : Session, y.schedule = x.schedule → y.offset.toNat + Config.chunkHdr + y.cLen.toNat ≤ y.srcLen.toNat →
      Moves h x (.fetch h) (k h y)) : Moves h x (.fetch h) (atChunk s tag hd k) := by
  intro t ht
  obtain ⟨h', x', hp', hx', hcase⟩ := atChunk_cases ht
  obtain rfl : h = h' := Phase.fetch.inj (hp.symm.trans hp')
  obtain rfl : x = x' := Option.some.inj (hx.symm.trans hx')
  rcases hcase with ⟨e, x1, hx1, -, rfl⟩ | ⟨src, -, hfit, -, hrun⟩
  · have hsched : x1.schedule = x.schedule := by rcases hx1 with rfl | rfl <;> rfl
    exact raiseFatal_moves (slot_lt hx) (Session.keepsSchedule_of_eq hsched) e _ rfl
  · refine hk (loadPayload src (latched tag hd x)) rfl ?_ t hrun
    rw [Session.remaining] at hfit
    simp only [Config.chunkHdr, loadPayload_offset, loadPayload_cLen, loadPayload_srcLen, latched]
    omega

/-- INFO sets TARGET from the latest `now` (40_chunk_reader R133). -/
theorem doInfo_upholds (hy : y.schedule = x.schedule)
    (hfits : y.offset.toNat + Config.chunkHdr + y.cLen.toNat ≤ y.srcLen.toNat) (p : Params) :
    (doInfo p y).Upholds (·.Finished x.schedule) (·.KeepsSchedule x.schedule) := by
  have hraise : y.KeepsSchedule x.schedule := Session.keepsSchedule_of_eq hy
  rw [doInfo]
  split
  · exact hraise
  split
  · simp only
    split_ifs
    · exact hraise
    · exact hraise
    · rw [declareSize_eq, ← hy]
      exact ⟨rfl, .inl ⟨rfl, .inr rfl⟩, hfits⟩
  · trivial

theorem doCodebook_upholds (hy : y.schedule = x.schedule)
    (hfits : y.offset.toNat + Config.chunkHdr + y.cLen.toNat ≤ y.srcLen.toNat) (p : Params) :
    (doCodebook p y).Upholds (·.Finished x.schedule) (·.KeepsSchedule x.schedule) := by
  simp only [doCodebook]
  split_ifs
  · exact Session.keepsSchedule_of_eq hy
  · exact Session.finished_of_eq hy hfits
  · exact Session.keepsSchedule_of_eq hy

theorem openVideo_schedule (p : Params) (y : Session) : (openVideo p y).schedule = y.schedule := by
  simp only [openVideo, refreshTable]
  split <;> rfl

/-- Each of the seven chunks moves on. -/
theorem exec_chunk_moves {hd : ChunkHdr} {i : Instr} (hx : s.slots[h]? = some x) (hp : s.phase = .fetch h)
    (hmem : i ∈ [Instr.info hd, .codebook hd, .video hd, .hang hd, .audioMono hd, .audioStereo hd, .packet hd]) :
    Moves h x (.fetch h) (exec i s) := by
  have hend : ∀ {r : Res Session}, r.Upholds (·.Finished x.schedule) (·.KeepsSchedule x.schedule) →
      Moves h x (.fetch h) (endChunk s h r) := endChunk_moves (slot_lt hx) (.inl rfl)
  simp only [List.mem_cons, List.not_mem_nil, or_false] at hmem
  rcases hmem with rfl | rfl | rfl | rfl | rfl | rfl | rfl <;>
    simp only [exec, execInfo, execCodebook, execVideo, execHang, execAudioMono, execAudioStereo, execPacket] <;>
    refine atChunk_moves hx hp fun y hy hfits => ?_
  · exact hend (doInfo_upholds hy hfits _)
  · exact hend (doCodebook_upholds hy hfits _)
  · exact commit_moves (slot_lt hx) (.opened rfl ((openVideo_schedule _ y).trans hy))
  · exact hend (Session.finished_of_eq hy hfits)
  · split_ifs
    · exact hend (Session.finished_of_eq hy hfits)
    · exact commit_moves (slot_lt hx) (.opened rfl hy)
  · split_ifs
    · exact hend (Session.finished_of_eq hy hfits)
    · exact commit_moves (slot_lt hx) (.opened rfl hy)
  · exact hend (Session.finished_of_eq hy hfits)

/-- After an audio byte fewer are left. -/
theorem advances_deltaStep {stereo : Bool} (hpos : x.audioPos < deltaCount stereo x) (d : Byte) :
    Advances h x (.audio h stereo) (.audio h stereo) (deltaStep stereo d x) := by
  have hone : (deltaStep stereo d x).schedule = x.schedule ∧ (deltaStep stereo d x).cLen = x.cLen ∧
      (deltaStep stereo d x).audioPos = x.audioPos + 1 := by
    rcases deltaStep_cases stereo d x with ⟨-, h⟩ | ⟨-, -, h⟩ | ⟨-, -, h⟩ <;> rw [h] <;> exact ⟨rfl, rfl, rfl⟩
  obtain ⟨hsched, hlen, hnext⟩ := hone
  refine .worked rfl rfl hsched ?_
  have hcount : deltaCount stereo (deltaStep stereo d x) = deltaCount stereo x := by rw [deltaCount, deltaCount, hlen]
  simp only [Phase.work, hcount, hnext]
  omega

theorem pushAudio_finished (hc : x.InChunk) (p : Params) : (pushAudio p x).Finished x.schedule := by
  rw [pushAudio]
  split
  · exact Session.finished_of_eq rfl hc.fits
  · exact Session.finished_of_eq rfl hc.fits

/-! ## The header parse and the catch-up loop -/

theorem parseHeader_upholds (p : Params) (magic fps : BitVec 16) (x : Session) :
    ((openHeader x).andThen (loadHeader p magic fps)).Upholds (·.decoded = x.decoded)
      (·.KeepsSchedule x.schedule) := by
  rcases openHeader_cases x with ⟨-, ho⟩ | ⟨-, ho⟩ <;> rw [ho]
  · exact rfl
  · rw [andThen_ok]
    rcases loadHeader_cases p magic fps { x with offset := 0, inmem := decide (x.rawn ≠ 0) } with
      ⟨-, hm⟩ | ⟨-, hm⟩ <;> rw [hm] <;> exact rfl

theorem exec_filehdr_moves {restart : Bool} (hx : s.slots[h]? = some x) (hp : s.phase = .header h restart)
    (magic : BitVec 16) (unused : BitVec 32) (fps : BitVec 16) :
    Moves h x (.header h restart) (exec (.filehdr magic unused fps) s) := by
  have hparse := parseHeader_upholds s.cfg magic fps x
  simp only [exec, execFilehdr, hp, hx]
  cases hr : (openHeader x).andThen (loadHeader s.cfg magic fps) with
  | ok y =>
    rw [hr] at hparse
    cases restart with
    | false => exact moves_next (slots_setSlot_self s h y (slot_lt hx)) (.parsed hparse)
    | true => exact moves_next (slots_setSlot_self s h _ (slot_lt hx)) (.restarted s.freeCount y)
  | raised e z =>
    rw [hr] at hparse
    exact raiseFatal_moves (slot_lt hx) hparse e
  | stuck f => exact moves_fault f

theorem endOfData_moves (hx : s.slots[h]? = some x) (hplay : x.status = .play) :
    Moves h x (.loop h) (.next (endOfData s h x)) := by
  rcases endOfData_cases s h x with ⟨-, ht⟩ | ⟨-, -, ht⟩ | ⟨-, -, ht⟩ <;> rw [ht]
  · exact moves_next (slots_setSlot_self s h _ (slot_lt hx)) (.ended hplay rfl (by simp))
  · exact moves_next hx (.rewound hplay)
  · exact moves_next (slots_setSlot_self s h _ (slot_lt hx)) (.ended hplay rfl (by simp))

theorem loopHead_moves (hx : s.slots[h]? = some x) : Moves h x (.loop h) (.next (loopHead s h x)) := by
  rcases loopHead_cases s h x with ⟨-, ht⟩ | ⟨hplay, -, ⟨-, ht⟩ | ⟨-, ht⟩⟩ <;> rw [ht]
  · exact moves_next hx .returned
  · exact moves_next hx (.due hplay)
  · exact endOfData_moves hx hplay

end Chunks

/-! ## Every step inside a command -/

section InCommand

variable {s : State} {h : Nat} {x : Session} {src : Source} (hq : s.port = none) (hx : s.slots[h]? = some x)
  (hs : sourceOf s x = some src)

include hq hx hs

theorem step_header_moves {restart : Bool} (hp : s.phase = .header h restart) :
    Moves h x (.header h restart) (step s) := by
  by_cases hlen : x.srcLen.toNat < 16
  · rw [step_header_truncated hq hx hs hp hlen]
    have hrewound : ({ x with offset := 0 } : Session).KeepsSchedule x.schedule := rfl
    exact raiseFatal_moves (slot_lt hx) hrewound .truncated
  · obtain ⟨magic, unused, fps, hd⟩ := decodeFileHdr_of_length (bytes := (srcRead src 0 16).take 8) (by simp)
    rw [step_fileHdr hq hx hs hp (Nat.not_lt.mp hlen) hd]
    exact exec_filehdr_moves hx hp magic unused fps

theorem step_fetch_moves (hp : s.phase = .fetch h) : Moves h x (.fetch h) (step s) := by
  by_cases hroom : x.offset.toNat + 8 ≤ x.srcLen.toNat
  · obtain ⟨tag, hd, hfields⟩ := chunkFields_of_length (srcRead_length src x.offset.toNat 8)
    rcases decodeTag_cases s.cfg tag hd with htag | ⟨i, hmem, htag⟩
    · rw [step_unknownTag hq hx hs hp hroom hfields htag]
      exact atChunk_moves hx hp fun y hy _ =>
        raiseFatal_moves (slot_lt hx) (Session.keepsSchedule_of_eq hy) .badOpcode
    · rw [step_chunkHdr hq hx hs hp hroom ((decode_chunkHdr hfields _).trans htag)]
      exact exec_chunk_moves hx hp hmem
  · rw [step_fetch_truncated hq hx hs hp (Nat.not_le.mp hroom)]
    exact raiseFatal_moves (slot_lt hx) rfl .truncated

theorem step_video_moves {pos : VideoPos} (hp : s.phase = .video h pos) (hv : x.InVideo pos) :
    Moves h x (.video h pos) (step s) := by
  have hf : fetch s = fetchVideo s h pos x := fetch_slot hq hx hs (by rw [fetchPlace, hp])
  cases pos with
  | node =>
    by_cases hleaf : x.leaf < x.atN
    · exact fetchOpcode_moves hx (by rw [hf, fetchVideo, if_pos hleaf]) (fun _ _ => rfl) fun z code hz hprog =>
        exec_qop8_moves hz hp hleaf hprog code
    · rw [step_frameComplete hq hx hs hp (Nat.not_lt.mp hleaf)]
      exact endChunk_moves (slot_lt hx) (.inr rfl) hv.chunk.frameComplete_finished
  | child j =>
    exact fetchOpcode_moves hx hf (fun _ _ => rfl) fun z code hz hprog =>
      exec_qop4_moves hz hp (hv.child (by simp)) hprog code

theorem step_audio_moves {stereo : Bool} (hp : s.phase = .audio h stereo) (ha : x.InAudio stereo) :
    Moves h x (.audio h stereo) (step s) := by
  have hf : fetch s = fetchAudio s h stereo x := fetch_slot hq hx hs (by rw [fetchPlace, hp])
  by_cases hpos : x.audioPos < deltaCount stereo x
  · cases hb : x.payload[x.audioPos]? with
    | none =>
      rw [step_of_done (by rw [hf, fetchAudio, if_pos hpos, hb])]
      exact moves_fault .noEntry
    | some d =>
      rw [step_delta hq hx hs hp hpos hb rfl]
      simp only [exec, execDelta, hp, hx]
      exact commit_moves (slot_lt hx) (advances_deltaStep hpos d)
  · rw [step_of_done (by rw [hf, fetchAudio, if_neg hpos])]
    exact endChunk_moves (slot_lt hx) (.inr rfl) (pushAudio_finished ha.chunk s.cfg)

end InCommand

/-- A step inside a command of a legal state moves on as `Advances` says. -/
theorem step_advances {s t : State} {h : Nat} {x : Session} (hi : s.Inv) (hp : s.phase.slot = some h)
    (hx : s.slots[h]? = some x) (ht : step s = .next t) :
    ∃ y, t.slots[h]? = some y ∧ Advances h x s.phase t.phase y := by
  obtain ⟨x', src, hq, hx', hs⟩ := slot_of_step_next hp ht
  obtain rfl : x = x' := Option.some.inj (hx.symm.trans hx')
  obtain ⟨x', hx', hst⟩ := hi.standsAt hp
  obtain rfl : x = x' := Option.some.inj (hx.symm.trans hx')
  have hdescribes := hst.phase
  suffices Moves h x s.phase (step s) from this t ht
  cases hph : s.phase <;> rw [hph] at hp hdescribes <;> cases hp
  case header restart => exact step_header_moves hq hx hs hph
  case loop => rw [step_loop hq hx hs hph]; exact loopHead_moves hx
  case fetch => exact step_fetch_moves hq hx hs hph
  case video pos => exact step_video_moves hq hx hs hph hdescribes
  case audio stereo => exact step_audio_moves hq hx hs hph hdescribes

end Sys2Proof.Machine
end

section
/-! DECODED and TARGET along the run of a command (44_scheduler R224, R233): what `Advances` says of them, and that the commands
themselves keep DECODED. -/

namespace Sys2Proof.Machine

/-! ## Inside a command -/

section Advances

variable {h : Nat} {x y : Session} {p q : Phase}

theorem Session.KeepsSchedule.trapped_schedule {c : Schedule} {z : Session} (hz : z.KeepsSchedule c) (k : Nat)
    (e : ErrCode) :
    (retireChunk k (trapEntry e z)).schedule = { c with status := .endOfStream, offset := z.offset } := by
  show { z.schedule with status := .endOfStream } = _
  rw [hz]

theorem Session.Finished.advanced_schedule {c : Schedule} {z : Session} (hz : z.Finished c) (k : Nat) :
    (retireChunk k (advance z)).schedule =
      { c with offset := (advance z).offset, decoded := z.decoded, target := z.target } := by
  show { z.schedule with offset := (advance z).offset } = _
  rw [hz.schedule]

theorem Schedule.Counts.decoded_le {c : Schedule} {d t : BitVec 64} (hc : c.Counts d t) :
    c.decoded.toNat ≤ d.toNat := by
  rcases hc with ⟨rfl, -⟩ | ⟨-, hd, -⟩
  · exact le_rfl
  · omega

/-- Only a loop restart lowers DECODED (R233). -/
theorem Advances.decoded_le (hm : Advances h x p q y) (hp : p ≠ .header h true) :
    x.decoded.toNat ≤ y.decoded.toNat := by
  have hsame : ∀ {d : BitVec 64}, d = x.decoded → x.decoded.toNat ≤ d.toNat := fun hd => hd ▸ le_rfl
  cases hm with
  | trapped k e hz => exact hsame (congrArg Schedule.decoded (hz.trapped_schedule k e))
  | parsed hy => exact hsame hy
  | restarted k z => exact absurd rfl hp
  | returned => exact le_rfl
  | due hplay => exact le_rfl
  | rewound hplay => exact le_rfl
  | ended hplay hy hst => exact hsame (congrArg Schedule.decoded hy)
  | opened hq hy => exact hsame (congrArg Schedule.decoded hy)
  | worked hp hq hy hwork => exact hsame (congrArg Schedule.decoded hy)
  | advanced k hp hz => exact hz.counts.decoded_le

/-- `Session.OnTime`, which is about the schedule only. -/
def Schedule.OnTime (c : Schedule) : Prop := c.target = c.targetNow ∧ c.decoded.toNat ≤ c.target.toNat

theorem Session.onTime_iff (x : Session) : x.OnTime ↔ x.schedule.OnTime := Iff.rfl

theorem Schedule.Counts.onTime {c : Schedule} {d t : BitVec 64} (hc : c.Counts d t) (hx : c.OnTime) :
    t = c.targetNow ∧ d.toNat ≤ t.toNat := by
  obtain ⟨hnow, hle⟩ := hx
  rcases hc with ⟨rfl, rfl | rfl⟩ | ⟨hdue, hd, rfl⟩
  · exact ⟨hnow, hle⟩
  · exact ⟨rfl, hnow ▸ hle⟩
  · exact ⟨hnow, by omega⟩

/-- After a loop restart no time has passed and no frame is counted (R226). -/
theorem restartRegs_onTime (k : Nat) (z : Session) : (restartRegs k z).OnTime :=
  ⟨by simp [targetOf], by simp⟩

/-- A TICK counts a frame only when it is due, and TARGET stays that of its `now` (R224). -/
theorem Advances.onTime (hm : Advances h x p q y) (hp : p ≠ .header h false) (hx : x.OnTime) : y.OnTime := by
  rw [Session.onTime_iff] at hx ⊢
  cases hm with
  | trapped k e hz => rw [hz.trapped_schedule]; exact hx
  | parsed hy => exact absurd rfl hp
  | restarted k z => exact restartRegs_onTime k z
  | returned => exact hx
  | due hplay => exact hx
  | rewound hplay => exact hx
  | ended hplay hy hst => rw [hy]; exact hx
  | opened hq hy => rw [hy]; exact hx
  | worked hp hq hy hwork => rw [hy]; exact hx
  | advanced k hp hz => rw [hz.advanced_schedule]; exact hz.counts.onTime hx

end Advances

/-- Settles O60: inside a command by `Advances`; the step works for slot `h`. -/
theorem decodedNeverPassesTarget : Obligations.DecodedNeverPassesTarget := by
  unfold Obligations.DecodedNeverPassesTarget
  intro s t h x hi hp hne hx htime ht
  obtain ⟨y, hy, hm⟩ := step_advances hi hp hx ht
  exact ⟨y, hy, hm.onTime hne htime⟩

/-! ## The commands -/

theorem resumed_decoded (x : Session) : (resumed x).decoded = x.decoded := by rw [resumed]; split <;> rfl

/-- A command keeps DECODED of the session it addresses, or frees its slot. -/
theorem exec_session_command_decoded {s t : State} {h : Nat} {x : Session} {src : Source} {i : Instr}
    (hp : s.phase = .idle) (hx : s.slots[h]? = some x) (hu : x.inUse = true) (hs : sourceOf s x = some src)
    (hi : (∃ now, i = .tick h now) ∨ i = .stop h ∨ i = .getframe h ∨ i = .resume h) (ht : exec i s = .next t) :
    ∃ y, t.slots[h]? = some y ∧ (y.inUse = false ∨ y.decoded = x.decoded) := by
  have hstored : ∀ (y : Session) {l : List Session}, l = s.slots.set h y → l[h]? = some y := fun y l hl => by
    simp [hl, slot_lt hx]
  rcases hi with ⟨now, rfl⟩ | rfl | rfl | rfl
  · by_cases hst : x.status = .endOfStream ∨ x.status = .idle
    · rw [exec_tick_returns hp hx hu hs hst] at ht
      cases ht
      exact ⟨_, hstored _ rfl, .inr rfl⟩
    · have hawake : x.status = .play ∨ x.status = .looped := by cases hc : x.status <;> simp [hc] at hst ⊢
      rw [exec_tick_wakes hp hx hu hs hawake] at ht
      cases ht
      exact ⟨_, hstored _ rfl, .inr rfl⟩
  · rw [exec_stop_eq hp hx hu] at ht
    cases ht
    exact ⟨_, hstored _ rfl, .inl rfl⟩
  · rw [exec_getframe_eq hp hx hu hs] at ht
    cases ht
    exact ⟨x, hx, .inr rfl⟩
  · rw [exec_resume_eq hp hx hu hs] at ht
    cases ht
    exact ⟨_, hstored _ rfl, .inr (resumed_decoded x)⟩

/-- So does a step of an idle machine, for every session in use. -/
theorem step_idle_decoded {s t : State} {h : Nat} {x : Session} {src : Source} (hp : s.phase = .idle)
    (hx : s.slots[h]? = some x) (hu : x.inUse = true) (hs : sourceOf s x = some src) (ht : step s = .next t) :
    ∃ y, t.slots[h]? = some y ∧ (y.inUse = false ∨ y.decoded = x.decoded) := by
  cases hc : s.port with
  | none =>
    rw [step_of_idle_quiet hp hc] at ht
    cases ht
    exact ⟨x, hx, .inr rfl⟩
  | some c =>
    obtain ⟨-, -, hstart, hother⟩ := step_command_keeps hp hc ht
    by_cases h0 : c.code = 0
    · exact ⟨x, hstart h0 h x hx hu, .inr rfl⟩
    by_cases hh : h = c.handle
    · subst hh
      by_cases hcode : c.code.toNat ≤ 4
      · have hrun : ∀ {i : Instr}, decodeCommand c = .ok i →
            ((∃ now, i = .tick c.handle now) ∨ i = .stop c.handle ∨ i = .getframe c.handle ∨ i = .resume c.handle) →
            ∃ y, t.slots[c.handle]? = some y ∧ (y.inUse = false ∨ y.decoded = x.decoded) := fun hd hi =>
          exec_session_command_decoded (s := { s with port := none }) hp hx hu hs hi ((step_command hp hc hd).symm.trans ht)
        rcases decodeCommand_cases hcode with ⟨h, -⟩ | hd | hd | hd | hd
        · exact absurd h h0
        · exact hrun hd (.inl ⟨_, rfl⟩)
        · exact hrun hd (.inr (.inl rfl))
        · exact hrun hd (.inr (.inr (.inl rfl)))
        · exact hrun hd (.inr (.inr (.inr rfl)))
      · rw [step_reservedCommand hp hc (by omega)] at ht; cases ht
    · exact ⟨x, (hother h0 h hh).trans hx, .inr rfl⟩

/-- Settles O59: a command keeps DECODED or frees the slot; inside a command only the slot of the phase changes, as `Advances`
says. -/
theorem decodedNeverDecreases : Obligations.DecodedNeverDecreases := by
  unfold Obligations.DecodedNeverDecreases
  intro s t h x hi ht hx hu
  cases hslot : s.phase.slot with
  | none =>
    obtain ⟨src, hs⟩ := hi.sourcesKept hx hu
    obtain ⟨y, hy, hfree | hkept⟩ := step_idle_decoded (Phase.eq_idle_of_slot hslot) hx hu hs ht
    · exact ⟨y, hy, .inl hfree⟩
    · exact ⟨y, hy, .inr (.inr (by rw [hkept]))⟩
  | some k =>
    by_cases hk : h = k
    · subst hk
      obtain ⟨y, hy, hm⟩ := step_advances hi hslot hx ht
      by_cases hp : s.phase = .header h true
      · exact ⟨y, hy, .inr (.inl hp)⟩
      · exact ⟨y, hy, .inr (.inr (hm.decoded_le hp))⟩
    · obtain ⟨c, rfl, -⟩ := step_changes_slot hslot ht
      exact ⟨x, ((c.othersKept k s).others h hk).trans hx, .inr (.inr le_rfl)⟩

end Sys2Proof.Machine
end

section
/-! Every command ends (44_scheduler R236): each of its steps leaves less to do. -/

namespace Sys2Proof.Machine

/-! ## What a command has left to do -/

/-- Three counts, the first of the greatest weight. -/
def weight (a b c : Nat) : Nat ×ₗ Nat ×ₗ Nat := toLex (a, toLex (b, c))

theorem weight_lt {a b c a' b' c' : Nat} :
    weight a b c < weight a' b' c' ↔ a < a' ∨ a = a' ∧ (b < b' ∨ b = b' ∧ c < c') := by
  simp [weight, Prod.Lex.toLex_lt_toLex]

/-- What is left to do in a command: first the bytes the catch-up loop can still read, none once STATUS is not Play or the
header is parsed again; then the stages of a turn of the loop; then the opcodes or bytes of the chunk in progress. -/
def Phase.budget : Phase → Session → Nat ×ₗ Nat ×ₗ Nat
  | .idle, _ => weight 0 0 0
  | .header _ _, _ => weight 0 1 0
  | .loop _, x => if x.status = .play then weight (x.remaining + 1) 3 0 else weight 0 0 0
  | .fetch _, x => weight (x.remaining + 1) 2 0
  | p, x => weight (x.remaining + 1) 1 (p.work x)

section Budget

variable {h : Nat} {x y z : Session} {p q : Phase}

theorem Phase.InsideChunk.budget (hp : p.InsideChunk h) (x : Session) :
    p.budget x = weight (x.remaining + 1) 1 (p.work x) := by
  cases p with
  | video k pos => rfl
  | audio k stereo => rfl
  | _ => exact hp.elim

theorem Phase.InsideChunk.slot (hp : p.InsideChunk h) : p.slot = some h := by
  cases p with
  | video k pos => exact congrArg some hp
  | audio k stereo => exact congrArg some hp
  | _ => exact hp.elim

theorem remaining_of_schedule (hy : y.schedule = x.schedule) : y.remaining = x.remaining :=
  congrArg (fun c : Schedule => c.srcLen.toNat - c.offset.toNat) hy

/-- A chunk that is done takes its header at least from the bytes that remain. -/
theorem Session.Finished.remaining_lt (hz : z.Finished x.schedule) (k : Nat) :
    (retireChunk k (advance z)).remaining < x.remaining := by
  have hoff : z.offset = x.offset := congrArg Schedule.offset hz.schedule
  have hlen : z.srcLen = x.srcLen := congrArg Schedule.srcLen hz.schedule
  have hfits : x.offset.toNat + 8 + z.cLen.toNat ≤ x.srcLen.toNat := by rw [← hoff, ← hlen]; exact hz.fits
  have hnext : (retireChunk k (advance z)).offset.toNat = x.offset.toNat + 8 + z.cLen.toNat := by
    rw [← hoff]; exact Nat.mod_eq_of_lt (hz.fits.trans_lt z.srcLen.isLt)
  have hsrc : (retireChunk k (advance z)).srcLen = x.srcLen := hlen
  rw [Session.remaining, Session.remaining, hnext, hsrc]
  omega

/-- Every step inside a command that does not end it leaves less to do. -/
theorem Advances.budget_lt (hm : Advances h x p q y) (hq : q ≠ .idle) : q.budget y < p.budget x := by
  cases hm with
  | trapped k e hz => exact absurd rfl hq
  | parsed hy => exact absurd rfl hq
  | returned => exact absurd rfl hq
  | restarted k z => simp [Phase.budget, weight_lt]
  | due hplay => simp [Phase.budget, hplay, weight_lt]
  | rewound hplay => simp [Phase.budget, hplay, weight_lt]
  | ended hplay hy hst => simp [Phase.budget, hplay, hst, weight_lt]
  | opened hin hy =>
    rw [hin.budget, remaining_of_schedule hy, Phase.budget, weight_lt]
    omega
  | worked hp hin hy hwork =>
    rw [hin.budget, hp.budget, remaining_of_schedule hy, weight_lt]
    omega
  | advanced k hp hz =>
    have hless := hz.remaining_lt k
    have hfirst : ∃ b c, p.budget x = weight (x.remaining + 1) b c := by
      rcases hp with rfl | hp
      · exact ⟨2, 0, rfl⟩
      · exact ⟨1, p.work x, hp.budget x⟩
    obtain ⟨b, c, hb⟩ := hfirst
    rw [hb, Phase.budget]
    split_ifs <;> rw [weight_lt] <;> omega

/-- A command stays with its slot until it ends. -/
theorem Advances.slot (hm : Advances h x p q y) (hq : q ≠ .idle) : q.slot = some h := by
  cases hm with
  | trapped k e hz => exact absurd rfl hq
  | parsed hy => exact absurd rfl hq
  | returned => exact absurd rfl hq
  | opened hq hy => exact hq.slot
  | worked hp hq hy hwork => exact hq.slot
  | restarted | due | rewound | ended | advanced => rfl

end Budget

/-! ## The run of a command -/

/-- Finitely many steps lead to the place where the next command is taken. -/
def State.Returns (s : State) : Prop :=
  ∃ (n : Nat) (t : State), Host.Core.run Sys2Proof.core n s = .next t ∧ t.phase = .idle

theorem returns_of_idle {s : State} (hp : s.phase = .idle) : s.Returns := ⟨0, s, rfl, hp⟩

theorem returns_of_step {s t : State} (ht : step s = .next t) (hr : t.Returns) : s.Returns := by
  obtain ⟨n, u, hrun, hu⟩ := hr
  have hcore : Sys2Proof.core.step s = .next t := ht
  exact ⟨n + 1, u, by simpa only [Host.Core.run, hcore] using hrun, hu⟩

/-- By induction on the budget: a step exists (`everyStepGoes`), keeps the invariant and lowers the budget. -/
theorem returns_of_inv {s : State} {h : Nat} {x : Session} (hi : s.Inv) (hp : s.phase.slot = some h)
    (hq : s.port = none) (hx : s.slots[h]? = some x) : s.Returns := by
  induction hb : s.phase.budget x using WellFoundedLT.induction generalizing s x with
  | ind b ih =>
    obtain ⟨t, ht⟩ := everyStepGoes s hi fun c hc => by rw [hq] at hc; cases hc
    refine returns_of_step ht ?_
    by_cases hidle : t.phase = .idle
    · exact returns_of_idle hidle
    obtain ⟨y, hy, hm⟩ := step_advances hi hp hx ht
    have hport : t.port = none := by
      obtain ⟨c, rfl, -⟩ := step_changes_slot hp ht
      exact hq
    exact ih _ (hb ▸ hm.budget_lt hidle) (invKeptByEveryStep s t hi ht) (hm.slot hidle) hport hy rfl

/-- Settles O54: the slot of the command is there, and what it has left to do falls with every step. -/
theorem everyCommandTerminates : Obligations.EveryCommandTerminates := by
  unfold Obligations.EveryCommandTerminates
  intro s h hi hp hq
  obtain ⟨x, hx, -⟩ := hi.standsAt hp
  exact returns_of_inv hi hp hq hx

end Sys2Proof.Machine
end

section
/-! The audio chunks: their opening (45_audio R261, R262, R264, R265), and their body run byte by byte to the push and the
advance (R263, R266, R269). -/

namespace Sys2Proof.Machine

/-! ## The opening (R264, R265) -/

/-- Settles O34: a SILENT session ends the chunk it has loaded; otherwise the seeds are those of `monoSeed` and
`stereoSeed`. -/
theorem audioChunkOpens : Obligations.AudioChunkOpens := by
  unfold Obligations.AudioChunkOpens
  rintro s h x src hd bias hr rfl
  rw [exec, execAudioMono, hr.atChunk_eq, exec, execAudioStereo, hr.atChunk_eq]
  refine ⟨fun hsilent => ?silent, fun hloud => ?seeded⟩
  case silent =>
    have hskip (tag : BitVec 16) : (loaded src tag hd x).silentFlag = true := hsilent
    simp only [hskip, if_true]
    exact ⟨_, _, rfl, rfl⟩
  case seeded =>
    have hplay (tag : BitVec 16) : (loaded src tag hd x).silentFlag = false := hloud
    simp only [hplay, Bool.false_eq_true, if_false]
    exact ⟨rfl, rfl⟩

/-! ## Stores into a slot and runs of the machine -/

theorem setSlot_setSlot (s : State) (h : Nat) (x y : Session) : (s.setSlot h x).setSlot h y = s.setSlot h y := by
  simp [State.setSlot]

theorem run_succ {s t : State} (ht : step s = .next t) (n : Nat) :
    Host.Core.run Sys2Proof.core (n + 1) s = Host.Core.run Sys2Proof.core n t := by
  have hcore : Sys2Proof.core.step s = .next t := ht
  simp only [Host.Core.run, hcore]

theorem run_one (s : State) : Host.Core.run Sys2Proof.core 1 s = step s := by
  have hcore : Sys2Proof.core.step s = step s := rfl
  simp only [Host.Core.run, hcore]
  cases step s <;> rfl

/-- After `n` steps one more is a step of the state they lead to. -/
theorem run_then_step {n : Nat} {s t : State} (hrun : Host.Core.run Sys2Proof.core n s = .next t) :
    Host.Core.run Sys2Proof.core (n + 1) s = step t := by
  induction n generalizing s with
  | zero =>
    obtain rfl : s = t := Host.Outcome.next.inj hrun
    exact run_one s
  | succ n ih =>
    cases hs : Sys2Proof.core.step s with
    | next u =>
      rw [run_succ hs] at hrun ⊢
      exact ih hrun
    | fault r => simp [Host.Core.run, hs] at hrun
    | refused r => simp [Host.Core.run, hs] at hrun

/-! ## The bytes of a body, one after the other (R261 to R263) -/

/-- A session whose audio work registers are these (45_audio R261, R262). -/
def Session.sounding (l r : BitVec 16) (samples : List Int) (n : Nat) (x : Session) : Session :=
  { x with accL := l, accR := r, audioBuf := samples, audioPos := n }

/-- A byte writes the audio work registers only, and is counted. -/
theorem deltaStep_eq_sounding (stereo : Bool) (d : Byte) (x : Session) :
    ∃ l r samples, deltaStep stereo d x = x.sounding l r samples (x.audioPos + 1) := by
  rcases deltaStep_cases stereo d x with ⟨-, hd⟩ | ⟨-, -, hd⟩ | ⟨-, -, hd⟩ <;> exact ⟨_, _, _, hd⟩

/-- The session after the bytes `ds`. -/
def deltaSteps (stereo : Bool) (ds : List Byte) (x : Session) : Session :=
  ds.foldl (fun y d => deltaStep stereo d y) x

@[simp] theorem deltaSteps_nil (stereo : Bool) (x : Session) : deltaSteps stereo [] x = x := rfl

@[simp] theorem deltaSteps_cons (stereo : Bool) (d : Byte) (ds : List Byte) (x : Session) :
    deltaSteps stereo (d :: ds) x = deltaSteps stereo ds (deltaStep stereo d x) := rfl

/-- The bytes of a mono chunk are those of `monoRun` (R261). -/
theorem deltaSteps_mono (ds : List Byte) (x : Session) :
    deltaSteps false ds x =
      x.sounding (monoRun x.accL ds).1 x.accR (x.audioBuf ++ (monoRun x.accL ds).2) (x.audioPos + ds.length) := by
  induction ds generalizing x with
  | nil => simp [Session.sounding, monoRun]
  | cons d ds ih =>
    have hd : deltaStep false d x = deltaMono d x := rfl
    rw [deltaSteps_cons, hd, ih]
    simp [Session.sounding, deltaMono, monoRun, stepAcc, Nat.add_assoc, Nat.add_comm]

/-- Two bytes of a stereo chunk, from an even position, step the left and then the right accumulator (R262). -/
theorem deltaStep_pair {x : Session} (heven : x.audioPos % 2 = 0) (a b : Byte) :
    deltaStep true b (deltaStep true a x) = deltaRight b (deltaLeft a x) := by
  have hodd : (deltaLeft a x).audioPos % 2 ≠ 0 := by simp only [deltaLeft]; omega
  have ha : deltaStep true a x = deltaLeft a x := by simp [deltaStep, heven]
  rw [ha, deltaStep, if_pos rfl, if_neg hodd]

/-- The bytes of a stereo chunk, the odd last one left out, are those of `stereoRun` (R262). -/
theorem deltaSteps_stereo (ds : List Byte) {x : Session} (heven : x.audioPos % 2 = 0) :
    deltaSteps true (ds.take (2 * (ds.length / 2))) x =
      x.sounding (stereoRun x.accL x.accR ds).1 (stereoRun x.accL x.accR ds).2.1
        (x.audioBuf ++ (stereoRun x.accL x.accR ds).2.2) (x.audioPos + 2 * (ds.length / 2)) := by
  induction ds using List.twoStepInduction generalizing x with
  | nil => simp [Session.sounding, stereoRun]
  | singleton d => simp [Session.sounding, stereoRun]
  | cons_cons a b ds ih _ =>
    have hlen : 2 * ((a :: b :: ds).length / 2) = 2 * (ds.length / 2) + 2 := by simp only [List.length_cons]; omega
    have hnext : (deltaRight b (deltaLeft a x)).audioPos % 2 = 0 := by simp only [deltaRight, deltaLeft]; omega
    rw [hlen, List.take_succ_cons, List.take_succ_cons, deltaSteps_cons, deltaSteps_cons, deltaStep_pair heven,
      ih hnext]
    simp [Session.sounding, deltaRight, deltaLeft, stereoRun, stepAcc, Nat.add_assoc, Nat.add_comm, Nat.add_left_comm]

/-! ## A body, run to its end (R266, R269) -/

section Body

variable {s : State} {h : Nat} {stereo : Bool} {x : Session} {src : Source} (hp : s.phase = .audio h stereo)
  (hq : s.port = none) (hx : s.slots[h]? = some x) (hs : sourceOf s x = some src)

include hp hq hx hs

/-- As many steps as `ds` has bytes step through them, where they are the next ones of the payload. -/
theorem run_deltaSteps {ds rest : List Byte} (hds : x.payload.drop x.audioPos = ds ++ rest)
    (hcount : x.audioPos + ds.length ≤ deltaCount stereo x) :
    Host.Core.run Sys2Proof.core ds.length s = .next (s.setSlot h (deltaSteps stereo ds x)) := by
  induction ds generalizing s x with
  | nil => rw [deltaSteps_nil, setSlot_self hx]; rfl
  | cons d ds ih =>
    have hhead : x.payload[x.audioPos]? = some d := by rw [← List.head?_drop, hds]; rfl
    have htail : x.payload.drop (x.audioPos + 1) = ds ++ rest := by rw [← List.tail_drop, hds]; rfl
    rw [List.length_cons] at hcount
    obtain ⟨l, r, samples, hy⟩ := deltaStep_eq_sounding stereo d x
    have hstep : step s = .next (s.setSlot h (x.sounding l r samples (x.audioPos + 1))) := by
      rw [step_delta hq hx hs hp (by omega) hhead rfl, exec_delta hp hx, hy, ← hp]
      rfl
    have hleft : x.audioPos + 1 + ds.length ≤ deltaCount stereo x := by omega
    have hrest := ih (s := s.setSlot h (x.sounding l r samples (x.audioPos + 1))) hp hq
      (slots_setSlot_self s h _ (slot_lt hx)) hs htail hleft
    rw [List.length_cons, run_succ hstep, hrest, deltaSteps_cons, hy, setSlot_setSlot]

/-- When every byte is stepped the samples are pushed and the chunk ends. -/
theorem step_pushAudio (hdone : deltaCount stereo x ≤ x.audioPos) :
    step s = endChunk s h (.ok (pushAudio s.cfg x)) := by
  have hf : fetch s = fetchAudio s h stereo x := fetch_slot hq hx hs (by rw [fetchPlace, hp])
  exact step_of_done (by rw [hf, fetchAudio, if_neg (Nat.not_lt.mpr hdone)])

end Body

/-- The push appends an event with the samples, unless there are none (R266). -/
theorem pushAudio_eq (p : Params) (x : Session) :
    pushAudio p x =
      { x with audioOut := x.audioOut ++ if x.audioBuf = [] then [] else [⟨x.audioBuf, p.audioRate, 2⟩] } := by
  rw [pushAudio]
  split_ifs
  · rw [List.append_nil]
  · rfl

/-- A body whose bytes leave the accumulators `l` and `r` and the samples `samples` pushes them and advances; the work
registers have no value outside the chunk (10_state R25). -/
theorem run_audioBody {s : State} {h n : Nat} {stereo : Bool} {x : Session} {src : Source} {l r : BitVec 16}
    {samples : List Int} (hp : s.phase = .audio h stereo) (hq : s.port = none) (hx : s.slots[h]? = some x)
    (hs : sourceOf s x = some src) (hcount : deltaCount stereo x = n)
    (hrun : Host.Core.run Sys2Proof.core n s = .next (s.setSlot h (x.sounding l r samples n))) :
    ∃ (u : Session) (k : Nat),
      Host.Core.run Sys2Proof.core (n + 1) s =
        .next (chunkDone s h x.cLen u k
          { x with audioOut := x.audioOut ++ if samples = [] then [] else [⟨samples, s.cfg.audioRate, 2⟩] }) := by
  have hlast : step (s.setSlot h (x.sounding l r samples n)) =
      endChunk (s.setSlot h (x.sounding l r samples n)) h (.ok (pushAudio s.cfg (x.sounding l r samples n))) :=
    step_pushAudio hp hq (slots_setSlot_self s h _ (slot_lt hx)) hs hcount.le
  obtain ⟨u, k, hdone⟩ := endChunk_eq_chunkDone (s.setSlot h (x.sounding l r samples n)) h (len := x.cLen)
    (y := pushAudio s.cfg (x.sounding l r samples n)) (by rw [pushAudio_eq]; rfl)
  refine ⟨u, k, ?_⟩
  rw [run_then_step hrun, hlast, hdone, pushAudio_eq, chunkDone, State.setSlot_slots, List.set_set]
  rfl

theorem monoRun_samples_eq_nil (acc : BitVec 16) (ds : List Byte) : (monoRun acc ds).2 = [] ↔ ds.length = 0 := by
  cases ds <;> simp [monoRun]

theorem stereoRun_samples_eq_nil (l r : BitVec 16) (ds : List Byte) :
    (stereoRun l r ds).2.2 = [] ↔ ds.length < 2 := by
  rcases ds with _ | ⟨a, _ | ⟨b, ds⟩⟩ <;> simp [stereoRun]

/-- Settles O36: the body steps through the whole payload, which gives samples unless it is empty. -/
theorem audioMonoChunkPushes : Obligations.AudioMonoChunkPushes := by
  unfold Obligations.AudioMonoChunkPushes
  intro s h x src hp hq hx hs hpos hbuf hlen
  have hbody := run_deltaSteps hp hq hx hs (ds := x.payload) (rest := [])
    (by rw [hpos, List.drop_zero, List.append_nil]) (by rw [hpos, Nat.zero_add, hlen]; rfl)
  rw [deltaSteps_mono, hpos, hbuf, List.nil_append, Nat.zero_add, hlen] at hbody
  obtain ⟨u, k, hend⟩ := run_audioBody hp hq hx hs rfl hbody
  have hempty : (monoRun x.accL x.payload).2 = [] ↔ x.cLen = 0 := by
    rw [monoRun_samples_eq_nil, hlen, ← BitVec.toNat_inj]; rfl
  simp only [hempty] at hend
  exact ⟨hbody, u, k, hend⟩

/-- Settles O37: the body steps through the pairs of the payload, which gives samples if there is one. -/
theorem audioStereoChunkPushes : Obligations.AudioStereoChunkPushes := by
  unfold Obligations.AudioStereoChunkPushes
  intro s h x src hp hq hx hs hpos hbuf hlen
  have hpairs : (x.payload.take (2 * (x.payload.length / 2))).length = 2 * (x.cLen.toNat / 2) := by
    rw [List.length_take, hlen]; omega
  have hbody := run_deltaSteps hp hq hx hs (ds := x.payload.take (2 * (x.payload.length / 2)))
    (by rw [hpos, List.drop_zero, List.take_append_drop]) (by rw [hpos, Nat.zero_add, hpairs]; rfl)
  rw [hpairs, deltaSteps_stereo x.payload (by rw [hpos]), hpos, hbuf, List.nil_append, Nat.zero_add, hlen] at hbody
  obtain ⟨u, k, hend⟩ := run_audioBody hp hq hx hs rfl hbody
  simp only [stereoRun_samples_eq_nil, hlen] at hend
  exact ⟨hbody, u, k, hend⟩

end Sys2Proof.Machine
end

section
/-! EndOfStream is terminal (60_exceptions R292): what a command can make of a session in use, and the one phase that works for
a session in EndOfStream. -/

namespace Sys2Proof.Machine

/-! ## What a command makes of the session it addresses -/

/-- `y` is what a command can make of the session `x` in its slot (44_scheduler R222, R227, R228, R229, R231). -/
inductive Session.Commanded (x : Session) : Session → Prop where
  | kept : x.Commanded x
  | ticked (now : BitVec 48) (hst : x.status = .endOfStream ∨ x.status = .idle) : x.Commanded { x with nowL := now }
  | woken (now : BitVec 48) (hst : x.status = .play ∨ x.status = .looped) : x.Commanded (wakeSession now x)
  | released (k : Nat) : x.Commanded (releasedSession k)
  | resumed : x.Commanded (resumed x)

/-- TICK, STOP, GETFRAME and RESUME of the handle `h`, the commands on a session (30_encoding R107). -/
inductive SessionCommand (h : Nat) : Instr → Prop where
  | tick (now : BitVec 48) : SessionCommand h (.tick h now)
  | stop : SessionCommand h (.stop h)
  | getframe : SessionCommand h (.getframe h)
  | resume : SessionCommand h (.resume h)

/-- A command with a code other than START's that goes on is one of the four of its handle (30_encoding R107, R108). -/
theorem step_sessionCommand {s t : State} {c : PortWord} (hp : s.phase = .idle) (hc : s.port = some c)
    (h0 : c.code ≠ 0) (ht : step s = .next t) :
    ∃ i, SessionCommand c.handle i ∧ exec i { s with port := none } = .next t := by
  by_cases hcode : c.code.toNat ≤ 4
  · have hrun : ∀ {i : Instr}, decodeCommand c = .ok i → exec i { s with port := none } = .next t := fun hd =>
      (step_command hp hc hd).symm.trans ht
    rcases decodeCommand_cases hcode with ⟨hstart, -⟩ | hd | hd | hd | hd
    · exact absurd hstart h0
    · exact ⟨_, .tick c.now, hrun hd⟩
    · exact ⟨_, .stop, hrun hd⟩
    · exact ⟨_, .getframe, hrun hd⟩
    · exact ⟨_, .resume, hrun hd⟩
  · rw [step_reservedCommand hp hc (by omega)] at ht; cases ht

section Command

variable {s t : State} {h : Nat} {x : Session} {src : Source} (hp : s.phase = .idle) (hx : s.slots[h]? = some x)
  (hu : x.inUse = true) (hs : sourceOf s x = some src)

include hp hx hu hs

/-- A command on a session in use puts one of these in its slot. -/
theorem exec_sessionCommand {i : Instr} (hi : SessionCommand h i) (ht : exec i s = .next t) :
    ∃ y, t.slots[h]? = some y ∧ x.Commanded y := by
  have hstored : ∀ y : Session, (s.slots.set h y)[h]? = some y := fun y => slots_setSlot_self s h y (slot_lt hx)
  cases hi with
  | tick now =>
    by_cases hst : x.status = .endOfStream ∨ x.status = .idle
    · rw [exec_tick_returns hp hx hu hs hst] at ht
      cases ht
      exact ⟨_, hstored _, .ticked now hst⟩
    · have hawake : x.status = .play ∨ x.status = .looped := by cases hc : x.status <;> simp [hc] at hst ⊢
      rw [exec_tick_wakes hp hx hu hs hawake] at ht
      cases ht
      exact ⟨_, hstored _, .woken now hawake⟩
  | stop =>
    rw [exec_stop_eq hp hx hu] at ht
    cases ht
    exact ⟨_, hstored _, .released _⟩
  | getframe =>
    rw [exec_getframe_eq hp hx hu hs] at ht
    cases ht
    exact ⟨x, hx, .kept⟩
  | resume =>
    rw [exec_resume_eq hp hx hu hs] at ht
    cases ht
    exact ⟨_, hstored _, .resumed⟩

/-- Without a command, with START and with a command for another slot the session is kept. -/
theorem step_idle_commanded (ht : step s = .next t) : ∃ y, t.slots[h]? = some y ∧ x.Commanded y := by
  cases hc : s.port with
  | none =>
    rw [step_of_idle_quiet hp hc] at ht
    cases ht
    exact ⟨x, hx, .kept⟩
  | some c =>
    obtain ⟨-, -, hstart, hother⟩ := step_command_keeps hp hc ht
    by_cases h0 : c.code = 0
    · exact ⟨x, hstart h0 h x hx hu, .kept⟩
    by_cases hh : h = c.handle
    · subst hh
      obtain ⟨i, hi, hexec⟩ := step_sessionCommand hp hc h0 ht
      exact exec_sessionCommand (s := { s with port := none }) hp hx hu hs hi hexec
    · exact ⟨x, (hother h0 h hh).trans hx, .kept⟩

end Command

/-! ## A session in EndOfStream (R292) -/

/-- No command moves a session out of EndOfStream: TICK writes NOW_L, STOP frees the slot, RESUME acts only on Idle. -/
theorem Session.Commanded.endOfStream {x y : Session} (hy : x.Commanded y) (hend : x.status = .endOfStream) :
    y = { x with nowL := y.nowL } ∨ y.inUse = false := by
  cases hy with
  | kept => exact .inl rfl
  | ticked now hst => exact .inl rfl
  | woken now hst => simp [hend] at hst
  | released k => exact .inr rfl
  | resumed => exact .inl (by rw [resumed_of_ne_idle (by simp [hend])])

/-- Every other phase of a command works for a session in Play. -/
theorem Phase.Describes.eq_loop_of_endOfStream {p : Phase} {h : Nat} {x : Session} (hd : p.Describes x)
    (hp : p.slot = some h) (hend : x.status = .endOfStream) : p = .loop h := by
  have hplay : x.status ≠ .play := by simp [hend]
  cases p with
  | idle => cases hp
  | header n restart => exact absurd hd.2 hplay
  | loop n => cases hp; rfl
  | fetch n => exact absurd hd.2.1 hplay
  | video n pos => exact absurd hd.chunk.status hplay
  | audio n stereo => exact absurd hd.chunk.status hplay

/-- A step for a session in EndOfStream is the loop head returning STATUS, which stores no slot (44_scheduler R224). -/
theorem step_slots_of_endOfStream {s t : State} {h : Nat} {x : Session} (hi : s.Inv) (hp : s.phase.slot = some h)
    (hx : s.slots[h]? = some x) (hend : x.status = .endOfStream) (ht : step s = .next t) : t.slots = s.slots := by
  obtain ⟨x', hx', hst⟩ := hi.standsAt hp
  obtain rfl : x = x' := Option.some.inj (hx.symm.trans hx')
  obtain ⟨x', src, hq, hx', hs⟩ := slot_of_step_next hp ht
  obtain rfl : x = x' := Option.some.inj (hx.symm.trans hx')
  have hloop : s.phase = .loop h := hst.phase.eq_loop_of_endOfStream hp hend
  rw [step_loop hq hx hs hloop, loopHead_of_done (by simp [hend])] at ht
  cases ht
  rfl

/-- Settles O55: an idle machine runs a command, which cannot leave EndOfStream; inside a command only the slot of the phase
changes, and not in EndOfStream. -/
theorem endOfStreamIsTerminal : Obligations.EndOfStreamIsTerminal := by
  unfold Obligations.EndOfStreamIsTerminal
  intro s t h x hi ht hx hu hend
  cases hslot : s.phase.slot with
  | none =>
    obtain ⟨src, hs⟩ := hi.sourcesKept hx hu
    obtain ⟨y, hy, hcommanded⟩ := step_idle_commanded (Phase.eq_idle_of_slot hslot) hx hu hs ht
    exact ⟨y, hy, hcommanded.endOfStream hend⟩
  | some k =>
    refine ⟨x, ?_, .inl rfl⟩
    by_cases hk : h = k
    · subst hk
      rw [step_slots_of_endOfStream hi hslot hx hend ht, hx]
    · obtain ⟨c, rfl, -⟩ := step_changes_slot hslot ht
      exact ((c.othersKept k s).others h hk).trans hx

end Sys2Proof.Machine
end

section
/-! What START latched (10_state R30, R33, 70_reset_and_hazards R337): the frame of the opcodes' operations, and that no step
writes the flags, the source, the rectangle, BPP or MODE of a session, but for freeing its slot. -/

namespace Sys2Proof.Machine

/-! ## What an opcode leaves -/

/-- `y` is `x` but for the opcode cache, the payload pointer and the banks: all the operations of the video opcodes write
(43_quadtree_video R184, R185, R194, R195). -/
def Session.Redrawn (x y : Session) : Prop :=
  ∃ w n p f g, y = { x with opw := w, opn := n, pptr := p, fb0 := f, fb1 := g }

theorem Session.Redrawn.refl (x : Session) : x.Redrawn x := ⟨_, _, _, _, _, rfl⟩

theorem Session.Redrawn.setCursor {x y : Session} (hy : x.Redrawn y) (w : BitVec 16) (n : BitVec 4) (p : BitVec 17) :
    x.Redrawn { y with opw := w, opn := n, pptr := p } := by
  obtain ⟨-, -, -, f, g, rfl⟩ := hy
  exact ⟨w, n, p, f, g, rfl⟩

theorem Session.Redrawn.setBank {x y : Session} (hy : x.Redrawn y) (b : BankId) (f : Surface) :
    x.Redrawn (y.setBank b f) := by
  obtain ⟨w, n, p, f0, f1, rfl⟩ := hy
  cases b with
  | bank0 => exact ⟨w, n, p, f, f1, rfl⟩
  | bank1 => exact ⟨w, n, p, f0, f, rfl⟩

section Opcodes

variable {x y : Session} (hy : x.Redrawn y)

include hy

theorem nextOpcode_redrawn : (nextOpcode y).Upholds (fun oz => x.Redrawn oz.2) x.Redrawn := by
  rcases nextOpcode_cases y with ⟨-, h⟩ | ⟨-, -, h⟩ | ⟨-, -, ⟨b0, b1, -, -, h⟩ | ⟨-, h⟩⟩ <;> rw [h]
  · exact hy.setCursor _ _ y.pptr
  · exact hy
  · exact hy.setCursor _ _ _
  · trivial

theorem nextByte_redrawn : (nextByte y).Upholds (fun bz => x.Redrawn bz.2) x.Redrawn := by
  rcases nextByte_cases y with ⟨-, h⟩ | ⟨-, ⟨b, -, h⟩ | ⟨-, h⟩⟩ <;> rw [h]
  · exact hy
  · exact hy.setCursor y.opw y.opn _
  · trivial

theorem tileLookup_redrawn (cb : List Tile) (n : BitVec 9) (k : Byte) :
    (tileLookup y cb n k).Upholds (fun _ => True) x.Redrawn := by
  rcases tileLookup_cases y cb n k with ⟨-, h⟩ | ⟨-, ⟨t, -, h⟩ | ⟨-, h⟩⟩ <;> rw [h]
  · exact hy
  · trivial
  · trivial

theorem storeBlock_redrawn (n col row : Nat) (byte : Nat → Nat → Nat → Byte) :
    (storeBlock y n col row byte).Upholds x.Redrawn x.Redrawn := by
  rcases storeBlock_cases y n col row byte with ⟨-, h⟩ | ⟨-, -, f, h, -⟩ <;> rw [h]
  · trivial
  · exact hy.setBank y.wr f

theorem motionFrom_redrawn (n col row : Nat) (m : Int × Int) :
    (motionFrom y n col row m).Upholds x.Redrawn x.Redrawn := by
  rcases motionFrom_cases y n col row m with ⟨-, h⟩ | ⟨sx, sy, -, -, -, -, h⟩ <;> rw [h]
  · exact hy
  · exact storeBlock_redrawn hy n col row _

theorem motionBlock_redrawn (n i : Nat) : (motionBlock n i y).Upholds x.Redrawn x.Redrawn :=
  (nextByte_redrawn hy).andThen fun bz hz =>
    (tableEntry_upholds bz.2 _ i).andThen fun e _ =>
      (motionLookup_upholds bz.2 _ bz.1).andThen fun m _ => motionFrom_redrawn hz n e.1 e.2 m

theorem vqBlock_redrawn (n i : Nat) (cb : List Tile) : (vqBlock n i cb y).Upholds x.Redrawn x.Redrawn :=
  (nextByte_redrawn hy).andThen fun kz hz =>
    (tileLookup_redrawn hz cb y.n4 kz.1).andThen fun _ _ =>
      (tableEntry_upholds kz.2 _ i).andThen fun e _ => storeBlock_redrawn hz n e.1 e.2 _

theorem quadBlock_redrawn (col row : Nat) : (quadBlock col row y).Upholds x.Redrawn x.Redrawn :=
  (nextByte_redrawn hy).andThen fun kz hz =>
    (tileLookup_redrawn hz y.cb2 y.n2 kz.1).andThen fun _ _ => storeBlock_redrawn hz 2 col row _

theorem quadBlocks_redrawn (i : Nat) : (quadBlocks i y).Upholds x.Redrawn x.Redrawn :=
  (tableEntry_upholds y _ i).andThen fun e _ =>
    (quadBlock_redrawn hy e.1 e.2).andThen fun _ h1 =>
      (quadBlock_redrawn h1 (e.1 + 2) e.2).andThen fun _ h2 =>
        (quadBlock_redrawn h2 e.1 (e.2 + 2)).andThen fun _ h3 => quadBlock_redrawn h3 (e.1 + 2) (e.2 + 2)

end Opcodes

/-! ## What START latched -/

/-- IN_USE and what START latches for the life of a session (10_state R30, R33). -/
structure StartRegs where
  inUse : Bool
  loopFlag : Bool
  holdFlag : Bool
  silentFlag : Bool
  globalFlag : Bool
  srcId : Nat
  srcLen : BitVec 32
  srcBytes : List Byte
  dstX : BitVec 32
  dstY : BitVec 32
  dstW : BitVec 32
  dstH : BitVec 32
  bpp : Depth
  mode : BitVec 2

def Session.startRegs (x : Session) : StartRegs :=
  ⟨x.inUse, x.loopFlag, x.holdFlag, x.silentFlag, x.globalFlag, x.srcId, x.srcLen, x.srcBytes, x.dstX, x.dstY, x.dstW,
    x.dstH, x.bpp, x.mode⟩

theorem Session.Redrawn.startRegs {x y : Session} (hy : x.Redrawn y) : y.startRegs = x.startRegs := by
  obtain ⟨w, n, p, f, g, rfl⟩ := hy
  rfl

/-- An operation on a session leaves `c` as what START latched, whether it goes on or raises an error. -/
def Res.Latched (c : StartRegs) (r : Res Session) : Prop := r.Upholds (·.startRegs = c) (·.startRegs = c)

theorem Res.latched_of_redrawn {x : Session} {r : Res Session} (hr : r.Upholds x.Redrawn x.Redrawn) :
    r.Latched x.startRegs := hr.mono (fun _ => Session.Redrawn.startRegs) fun _ => Session.Redrawn.startRegs

/-- If the outcome is a next state, slot `h` holds a session with `c` as what START latched. -/
def KeepsLatched (h : Nat) (c : StartRegs) (o : Host.Outcome State Fault Refusal) : Prop :=
  ∀ t, o = .next t → ∃ y, t.slots[h]? = some y ∧ y.startRegs = c

section Outcomes

variable {s : State} {h : Nat} {x y : Session} {c : StartRegs}

theorem keepsLatched_next {t : State} (hy : t.slots[h]? = some y) (hc : y.startRegs = c) : KeepsLatched h c (.next t) :=
  fun _ ht => Host.Outcome.next.inj ht ▸ ⟨y, hy, hc⟩

theorem keepsLatched_fault (f : Fault) : KeepsLatched h c (.fault f) := fun _ ht => by cases ht

/-- Trap entry stores the session at the raise with none of these registers written (60_exceptions R290). -/
theorem raiseFatal_keepsLatched (hlt : h < s.slots.length) (hc : y.startRegs = c) (e : ErrCode) :
    KeepsLatched h c (.next (raiseFatal s h e y)) := keepsLatched_next (slots_setSlot_self s h _ hlt) hc

theorem commit_keepsLatched {r : Res Session} (hlt : h < s.slots.length) (hr : r.Latched c) (p : Phase) :
    KeepsLatched h c (commit s h p r) := by
  cases r with
  | ok y => exact keepsLatched_next (slots_setSlot_self s h y hlt) hr
  | raised e y => exact raiseFatal_keepsLatched hlt hr e
  | stuck f => exact keepsLatched_fault f

theorem endChunk_keepsLatched {r : Res Session} (hlt : h < s.slots.length) (hr : r.Latched c) :
    KeepsLatched h c (endChunk s h r) := by
  cases r with
  | ok y => exact keepsLatched_next (slots_setSlot_self s h _ hlt) hr
  | raised e y => exact raiseFatal_keepsLatched hlt hr e
  | stuck f => exact keepsLatched_fault f

/-! ## The video opcodes -/

theorem atNode_keepsLatched {k : Session → Res Session} (hx : s.slots[h]? = some x) (hp : s.phase = .video h .node)
    (hk : (k x).Latched c) (next : Nat → Phase) : KeepsLatched h c (atNode s next k) := by
  simp only [atNode, hp, hx]
  exact commit_keepsLatched (slot_lt hx) hk _

theorem atChild_keepsLatched {j : Fin 4} {k : Fin 4 → Session → Res Session} (hx : s.slots[h]? = some x)
    (hp : s.phase = .video h (.child j)) (hk : (k j x).Latched c) : KeepsLatched h c (atChild s k) := by
  simp only [atChild, hp, hx]
  have hleaf : ∀ y : Session, (leafAfterChild j y).startRegs = y.startRegs := fun y => by
    rw [leafAfterChild]; split <;> rfl
  have hstored : ((k j x).andThen fun y => .ok (leafAfterChild j y)).Latched c :=
    Res.Upholds.andThen hk fun y hy => (hleaf y).trans hy
  exact commit_keepsLatched (slot_lt hx) hstored _

theorem exec_qop8_keepsLatched (hx : s.slots[h]? = some x) (hp : s.phase = .video h .node) (code : BitVec 2) :
    KeepsLatched h x.startRegs (exec (decodeQop8 code) s) := by
  have hnext : ∀ {r : Res Session}, r.Upholds x.Redrawn x.Redrawn →
      (r.andThen fun y => .ok (nextLeaf y)).Latched x.startRegs :=
    fun hr => (Res.latched_of_redrawn hr).andThen fun _ hy => hy
  rcases decodeQop8_cases code with hc | hc | hc | hc <;> rw [hc]
  · exact atNode_keepsLatched (k := fun x => .ok (nextLeaf x)) hx hp rfl _
  · exact atNode_keepsLatched hx hp (hnext (motionBlock_redrawn (.refl x) 8 _)) _
  · exact atNode_keepsLatched hx hp (hnext (vqBlock_redrawn (.refl x) 8 _ _)) _
  · exact atNode_keepsLatched (k := .ok) hx hp rfl _

theorem exec_qop4_keepsLatched {j : Fin 4} (hx : s.slots[h]? = some x) (hp : s.phase = .video h (.child j))
    (code : BitVec 2) : KeepsLatched h x.startRegs (exec (decodeQop4 code) s) := by
  rcases decodeQop4_cases code with hc | hc | hc | hc <;> rw [hc]
  · exact atChild_keepsLatched (k := fun _ => .ok) hx hp rfl
  · exact atChild_keepsLatched hx hp (Res.latched_of_redrawn (motionBlock_redrawn (.refl x) 4 _))
  · exact atChild_keepsLatched hx hp (Res.latched_of_redrawn (vqBlock_redrawn (.refl x) 4 _ _))
  · exact atChild_keepsLatched hx hp (Res.latched_of_redrawn (quadBlocks_redrawn (.refl x) _))

/-- Where an opcode is due it is taken, or the payload is truncated; what it decodes to, `dec` of it, then works on the slot
with the opcode taken. -/
theorem fetchOpcode_keepsLatched {enc : BitVec 2 → Encoded} {dec : BitVec 2 → Instr} (hx : s.slots[h]? = some x)
    (hf : fetch s = fetchOpcode s h x enc) (hdec : ∀ p code, decode p (enc code) = .ok (dec code))
    (hexec : ∀ (z : Session) (code : BitVec 2), (s.setSlot h z).slots[h]? = some z →
      KeepsLatched h z.startRegs (exec (dec code) (s.setSlot h z))) : KeepsLatched h x.startRegs (step s) := by
  have hn := nextOpcode_redrawn (.refl x)
  cases ho : nextOpcode x with
  | ok oz =>
    rw [ho] at hn
    rw [step_of_instr (by rw [hf, fetchOpcode, ho]) (hdec _ _), ← hn.startRegs]
    exact hexec oz.2 oz.1 (slots_setSlot_self s h oz.2 (slot_lt hx))
  | raised e z =>
    rw [ho] at hn
    rw [step_of_done (by rw [hf, fetchOpcode, ho])]
    exact raiseFatal_keepsLatched (slot_lt hx) hn.startRegs e
  | stuck f => rw [step_of_done (by rw [hf, fetchOpcode, ho])]; exact keepsLatched_fault f

/-! ## The chunks -/

/-- The chunk fetch writes none of these registers. -/
theorem atChunk_keepsLatched {tag : BitVec 16} {hd : ChunkHdr} {k : Nat → Session → Host.Outcome State Fault Refusal}
    (hx : s.slots[h]? = some x) (hp : s.phase = .fetch h)
    (hk : ∀ y : Session, y.startRegs = x.startRegs → KeepsLatched h x.startRegs (k h y)) :
    KeepsLatched h x.startRegs (atChunk s tag hd k) := by
  intro t ht
  obtain ⟨h', x', hp', hx', hcase⟩ := atChunk_cases ht
  obtain rfl : h = h' := Phase.fetch.inj (hp.symm.trans hp')
  obtain rfl : x = x' := Option.some.inj (hx.symm.trans hx')
  rcases hcase with ⟨e, x1, rfl | rfl, -, rfl⟩ | ⟨src, -, -, -, hrun⟩
  · exact raiseFatal_keepsLatched (slot_lt hx) rfl e _ rfl
  · exact raiseFatal_keepsLatched (y := latched tag hd x) (slot_lt hx) rfl e _ rfl
  · exact hk (loadPayload src (latched tag hd x)) rfl t hrun

theorem doInfo_latched (hy : y.startRegs = c) (p : Params) : (doInfo p y).Latched c := by
  rw [doInfo]
  split
  · exact hy
  split
  · simp only
    split_ifs
    · exact hy
    · exact hy
    · rw [declareSize_eq]; exact hy
  · trivial

theorem doCodebook_latched (hy : y.startRegs = c) (p : Params) : (doCodebook p y).Latched c := by
  simp only [doCodebook]
  split_ifs <;> exact hy

theorem openVideo_startRegs (p : Params) (y : Session) : (openVideo p y).startRegs = y.startRegs := by
  rw [openVideo, refreshTable_eq]; rfl

theorem exec_chunk_keepsLatched {hd : ChunkHdr} {i : Instr} (hx : s.slots[h]? = some x) (hp : s.phase = .fetch h)
    (hmem : i ∈ [Instr.info hd, .codebook hd, .video hd, .hang hd, .audioMono hd, .audioStereo hd, .packet hd]) :
    KeepsLatched h x.startRegs (exec i s) := by
  have hend : ∀ {r : Res Session}, r.Latched x.startRegs → KeepsLatched h x.startRegs (endChunk s h r) :=
    endChunk_keepsLatched (slot_lt hx)
  have hstore : ∀ {p : Phase} {y : Session}, y.startRegs = x.startRegs →
      KeepsLatched h x.startRegs (commit s h p (.ok y)) :=
    keepsLatched_next (slots_setSlot_self s h _ (slot_lt hx))
  simp only [List.mem_cons, List.not_mem_nil, or_false] at hmem
  rcases hmem with rfl | rfl | rfl | rfl | rfl | rfl | rfl <;>
    simp only [exec, execInfo, execCodebook, execVideo, execHang, execAudioMono, execAudioStereo, execPacket] <;>
    refine atChunk_keepsLatched hx hp fun y hy => ?_
  · exact hend (doInfo_latched hy _)
  · exact hend (doCodebook_latched hy _)
  · exact hstore ((openVideo_startRegs _ y).trans hy)
  · exact hend hy
  · split_ifs
    · exact hend hy
    · exact hstore hy
  · split_ifs
    · exact hend hy
    · exact hstore hy
  · exact hend hy

theorem frameComplete_startRegs (x : Session) : (frameComplete x).startRegs = x.startRegs := by
  rw [frameComplete_eq]; rfl

theorem deltaStep_startRegs (stereo : Bool) (d : Byte) (x : Session) : (deltaStep stereo d x).startRegs = x.startRegs := by
  rcases deltaStep_cases stereo d x with ⟨-, h⟩ | ⟨-, -, h⟩ | ⟨-, -, h⟩ <;> rw [h] <;> rfl

theorem pushAudio_startRegs (p : Params) (x : Session) : (pushAudio p x).startRegs = x.startRegs := by
  rw [pushAudio]; split <;> rfl

/-! ## The header parse and the catch-up loop -/

theorem parseHeader_latched (p : Params) (magic fps : BitVec 16) (x : Session) :
    ((openHeader x).andThen (loadHeader p magic fps)).Latched x.startRegs := by
  rcases openHeader_cases x with ⟨-, ho⟩ | ⟨-, ho⟩ <;> rw [ho]
  · exact rfl
  · rw [andThen_ok]
    rcases loadHeader_cases p magic fps { x with offset := 0, inmem := decide (x.rawn ≠ 0) } with
      ⟨-, hm⟩ | ⟨-, hm⟩ <;> rw [hm] <;> exact rfl

theorem exec_filehdr_keepsLatched {restart : Bool} (hx : s.slots[h]? = some x) (hp : s.phase = .header h restart)
    (magic : BitVec 16) (unused : BitVec 32) (fps : BitVec 16) :
    KeepsLatched h x.startRegs (exec (.filehdr magic unused fps) s) := by
  have hparse := parseHeader_latched s.cfg magic fps x
  simp only [exec, execFilehdr, hp, hx]
  cases hr : (openHeader x).andThen (loadHeader s.cfg magic fps) with
  | ok y =>
    rw [hr] at hparse
    cases restart with
    | false => exact keepsLatched_next (slots_setSlot_self s h y (slot_lt hx)) hparse
    | true => exact keepsLatched_next (slots_setSlot_self s h _ (slot_lt hx)) hparse
  | raised e z =>
    rw [hr] at hparse
    exact raiseFatal_keepsLatched (slot_lt hx) hparse e
  | stuck f => exact keepsLatched_fault f

theorem loopHead_keepsLatched (hx : s.slots[h]? = some x) : KeepsLatched h x.startRegs (.next (loopHead s h x)) := by
  rcases loopHead_cases s h x with ⟨-, ht⟩ | ⟨-, -, ⟨-, ht⟩ | ⟨-, ht⟩⟩ <;> rw [ht]
  · exact keepsLatched_next hx rfl
  · exact keepsLatched_next hx rfl
  · rcases endOfData_cases s h x with ⟨-, he⟩ | ⟨-, -, he⟩ | ⟨-, -, he⟩ <;> rw [he]
    · exact keepsLatched_next (slots_setSlot_self s h _ (slot_lt hx)) rfl
    · exact keepsLatched_next hx rfl
    · exact keepsLatched_next (slots_setSlot_self s h _ (slot_lt hx)) rfl

end Outcomes

/-! ## Every step inside a command -/

section InCommand

variable {s : State} {h : Nat} {x : Session} {src : Source} (hq : s.port = none) (hx : s.slots[h]? = some x)
  (hs : sourceOf s x = some src)

include hq hx hs

theorem step_header_keepsLatched {restart : Bool} (hp : s.phase = .header h restart) :
    KeepsLatched h x.startRegs (step s) := by
  by_cases hlen : x.srcLen.toNat < 16
  · rw [step_header_truncated hq hx hs hp hlen]
    exact raiseFatal_keepsLatched (y := { x with offset := 0 }) (slot_lt hx) rfl .truncated
  · obtain ⟨magic, unused, fps, hd⟩ := decodeFileHdr_of_length (bytes := (srcRead src 0 16).take 8) (by simp)
    rw [step_fileHdr hq hx hs hp (Nat.not_lt.mp hlen) hd]
    exact exec_filehdr_keepsLatched hx hp magic unused fps

theorem step_fetch_keepsLatched (hp : s.phase = .fetch h) : KeepsLatched h x.startRegs (step s) := by
  by_cases hroom : x.offset.toNat + 8 ≤ x.srcLen.toNat
  · obtain ⟨tag, hd, hfields⟩ := chunkFields_of_length (srcRead_length src x.offset.toNat 8)
    rcases decodeTag_cases s.cfg tag hd with htag | ⟨i, hmem, htag⟩
    · rw [step_unknownTag hq hx hs hp hroom hfields htag]
      exact atChunk_keepsLatched hx hp fun y hy => raiseFatal_keepsLatched (slot_lt hx) hy .badOpcode
    · rw [step_chunkHdr hq hx hs hp hroom ((decode_chunkHdr hfields _).trans htag)]
      exact exec_chunk_keepsLatched hx hp hmem
  · rw [step_fetch_truncated hq hx hs hp (Nat.not_le.mp hroom)]
    exact raiseFatal_keepsLatched (slot_lt hx) rfl .truncated

theorem step_video_keepsLatched {pos : VideoPos} (hp : s.phase = .video h pos) : KeepsLatched h x.startRegs (step s) := by
  have hf : fetch s = fetchVideo s h pos x := fetch_slot hq hx hs (by rw [fetchPlace, hp])
  cases pos with
  | node =>
    by_cases hleaf : x.leaf < x.atN
    · exact fetchOpcode_keepsLatched hx (by rw [hf, fetchVideo, if_pos hleaf]) (fun _ _ => rfl) fun z code hz =>
        exec_qop8_keepsLatched hz hp code
    · rw [step_frameComplete hq hx hs hp (Nat.not_lt.mp hleaf)]
      exact endChunk_keepsLatched (slot_lt hx) (frameComplete_startRegs x)
  | child j =>
    exact fetchOpcode_keepsLatched hx hf (fun _ _ => rfl) fun z code hz => exec_qop4_keepsLatched hz hp code

theorem step_audio_keepsLatched {stereo : Bool} (hp : s.phase = .audio h stereo) :
    KeepsLatched h x.startRegs (step s) := by
  have hf : fetch s = fetchAudio s h stereo x := fetch_slot hq hx hs (by rw [fetchPlace, hp])
  by_cases hpos : x.audioPos < deltaCount stereo x
  · cases hb : x.payload[x.audioPos]? with
    | none =>
      rw [step_of_done (by rw [hf, fetchAudio, if_pos hpos, hb])]
      exact keepsLatched_fault .noEntry
    | some d =>
      rw [step_delta hq hx hs hp hpos hb rfl]
      simp only [exec, execDelta, hp, hx]
      exact keepsLatched_next (slots_setSlot_self s h _ (slot_lt hx)) (deltaStep_startRegs stereo d x)
  · rw [step_of_done (by rw [hf, fetchAudio, if_neg hpos])]
    exact endChunk_keepsLatched (slot_lt hx) (pushAudio_startRegs s.cfg x)

end InCommand

/-- A step inside a command keeps what START latched in its slot, of a legal state or not. -/
theorem step_slot_startRegs {s t : State} {h : Nat} {x : Session} (hp : s.phase.slot = some h)
    (hx : s.slots[h]? = some x) (ht : step s = .next t) : ∃ y, t.slots[h]? = some y ∧ y.startRegs = x.startRegs := by
  obtain ⟨x', src, hq, hx', hs⟩ := slot_of_step_next hp ht
  obtain rfl : x = x' := Option.some.inj (hx.symm.trans hx')
  suffices KeepsLatched h x.startRegs (step s) from this t ht
  cases hph : s.phase <;> rw [hph] at hp <;> cases hp
  case header restart => exact step_header_keepsLatched hq hx hs hph
  case loop => rw [step_loop hq hx hs hph]; exact loopHead_keepsLatched hx
  case fetch => exact step_fetch_keepsLatched hq hx hs hph
  case video pos => exact step_video_keepsLatched hq hx hs hph
  case audio stereo => exact step_audio_keepsLatched hq hx hs hph

/-! ## The commands -/

theorem Session.Commanded.startRegs {x y : Session} (hy : x.Commanded y) :
    y.inUse = false ∨ y.startRegs = x.startRegs := by
  cases hy with
  | kept => exact .inr rfl
  | ticked now hst => exact .inr rfl
  | woken now hst => exact .inr rfl
  | released k => exact .inl rfl
  | resumed => rw [Machine.resumed]; split <;> exact .inr rfl

/-- A command on a session in use that goes on found its source, or is STOP, which asks for none (20_memory R74). -/
theorem exec_sessionCommand_source {s t : State} {h : Nat} {x : Session} {i : Instr} (hp : s.phase = .idle)
    (hx : s.slots[h]? = some x) (hu : x.inUse = true) (hi : SessionCommand h i) (ht : exec i s = .next t) :
    i = .stop h ∨ ∃ src, sourceOf s x = some src := by
  have hvalid := session?_of_inUse hx hu
  cases hi with
  | stop => exact .inl rfl
  | tick now =>
    simp only [exec, execTick, if_pos hp, hvalid] at ht
    exact .inr (onSession_eq_next ht).1
  | getframe =>
    simp only [exec, execGetframe, if_pos hp, hvalid] at ht
    exact .inr (onSession_eq_next ht).1
  | resume =>
    simp only [exec, execResume, if_pos hp, hvalid] at ht
    exact .inr (onSession_eq_next ht).1

theorem exec_sessionCommand_commanded {s t : State} {h : Nat} {x : Session} {i : Instr} (hp : s.phase = .idle)
    (hx : s.slots[h]? = some x) (hu : x.inUse = true) (hi : SessionCommand h i) (ht : exec i s = .next t) :
    ∃ y, t.slots[h]? = some y ∧ x.Commanded y := by
  rcases exec_sessionCommand_source hp hx hu hi ht with rfl | ⟨src, hs⟩
  · rw [exec_stop_eq hp hx hu] at ht
    cases ht
    exact ⟨_, slots_setSlot_self s h _ (slot_lt hx), .released _⟩
  · exact exec_sessionCommand hp hx hu hs hi ht

/-- A step of the idle machine makes of a session in use what a command can make of it, whatever became of its source. -/
theorem step_idle_commanded_of_inUse {s t : State} {h : Nat} {x : Session} (hp : s.phase = .idle)
    (hx : s.slots[h]? = some x) (hu : x.inUse = true) (ht : step s = .next t) :
    ∃ y, t.slots[h]? = some y ∧ x.Commanded y := by
  cases hc : s.port with
  | none =>
    rw [step_of_idle_quiet hp hc] at ht
    cases ht
    exact ⟨x, hx, .kept⟩
  | some c =>
    obtain ⟨-, -, hstart, hother⟩ := step_command_keeps hp hc ht
    by_cases h0 : c.code = 0
    · exact ⟨x, hstart h0 h x hx hu, .kept⟩
    by_cases hh : h = c.handle
    · subst hh
      obtain ⟨i, hi, hexec⟩ := step_sessionCommand hp hc h0 ht
      exact exec_sessionCommand_commanded (s := { s with port := none }) hp hx hu hi hexec
    · exact ⟨x, (hother h0 h hh).trans hx, .kept⟩

/-! ## Every step -/

/-- Settles O58: an idle machine runs a command, which frees the slot or writes none of these registers; a step inside a
command stores one slot with all of them kept. -/
theorem latchedRegistersStay : Obligations.LatchedRegistersStay := by
  unfold Obligations.LatchedRegistersStay
  intro s t h x ht hx hu
  suffices hkept : ∃ y, t.slots[h]? = some y ∧ (y.inUse = false ∨ y.startRegs = x.startRegs) by
    obtain ⟨y, hy, hregs⟩ := hkept
    exact ⟨y, hy, hregs.imp_right fun heq => by simpa [Session.startRegs, hu] using heq⟩
  cases hslot : s.phase.slot with
  | none =>
    obtain ⟨y, hy, hcommanded⟩ := step_idle_commanded_of_inUse (Phase.eq_idle_of_slot hslot) hx hu ht
    exact ⟨y, hy, hcommanded.startRegs⟩
  | some k =>
    by_cases hk : h = k
    · subst hk
      obtain ⟨y, hy, hregs⟩ := step_slot_startRegs hslot hx ht
      exact ⟨y, hy, .inr hregs⟩
    · obtain ⟨c, rfl, -⟩ := step_changes_slot hslot ht
      exact ⟨x, ((c.othersKept k s).others h hk).trans hx, .inr rfl⟩

end Sys2Proof.Machine
end
